-- ==== Sys2Proof/Word.lean ====
section
/-! DEFINITION. The words, tags and identifiers that every other file uses (spec 00 R12-R18, 03 R82). -/

namespace Sys2Proof

/-- A 64-bit register or memory word (R82). -/
abbrev Word := BitVec 64

/-- One byte. -/
abbrev Byte := BitVec 8

/-- The tags of Table 3-2; codes 8 to 14 are never produced (R82). -/
inductive Tag where
  | raw | int | flt | ptr | sptr | hnd | code | empty | poison
  deriving DecidableEq, Repr

/-- The 4-bit code of a tag (Table 3-2). -/
def Tag.toNat : Tag → Nat
  | .raw => 0 | .int => 1 | .flt => 2 | .ptr => 3 | .sptr => 4
  | .hnd => 5 | .code => 6 | .empty => 7 | .poison => 15

/-- A word with its tag (R82). -/
structure TWord where
  val : Word
  tag : Tag
  deriving DecidableEq, Repr

/-- What a wipe and core reset leave: value zero, tag EMPTY (R91, R96). -/
def TWord.empty : TWord := ⟨0, .empty⟩

/-- A logical core ID, y × 64 + x, 0 to 3071 (R12). -/
abbrev CoreId := Fin 3072

/-- A hardware thread number, 0 to 7 (R42, Table 1-2). -/
abbrev Thr := Fin 8

/-- A general register number, g0 to g31 (R94). -/
abbrev Reg := Fin 32

/-- A physical core: cluster × 72 + row × 9 + pcol (R14). -/
abbrev PhysId := Fin 3456

end Sys2Proof
end

