-- ==== Sys2Proof/Config.lean ====
section
/-! DEFINITION. What an implementation fixes and the spec leaves open: each is a constant without a body, so that a claim holds whatever it is. -/

namespace Sys2Proof.Config

/-- XADDR of a bounds or alignment fault that has no effective address (pointer arithmetic and the creation instructions): Table 4-1 names none. A function of the operands. Log entry 3. -/
opaque xaddrNoEa : Word → Word → Word

/-- The implementation's VEXP2, VLOG2, VRCP and VRSQ: fixed functions of the operand's bits, of which R276 gives only bounds and special cases. Log entry 5. -/
opaque vexp2 : BitVec 32 → BitVec 32
opaque vlog2 : BitVec 32 → BitVec 32
opaque vrcp : BitVec 32 → BitVec 32
opaque vrsq : BitVec 32 → BitVec 32

/-- What a self-test kernel leaves in the test tile (bytes 0 to 2047) and the test accumulator (from 2048 on) of a physical core: the kernels are not given, and nothing reads those bytes (R233, R642). Log entry 111. -/
opaque kernelByte : Nat → Nat → Byte

/-- The Briend vendor ID in PCI configuration space (R2), whose number the spec does not give. Log entry 110. -/
opaque vendorId : Nat

/-- The stream that carries the credit returns of a static channel: Table 12-3 and R378 name none. A function of the reader's logical core ID and its CHI. Log entry 4. -/
opaque creditStream : Nat → Nat → Nat

/-- The stream that brings the messages of a static channel whose sender is on another chip: no register or section of this chip names it. A function of the reader's logical core ID and its CHI. Log entry 4. -/
opaque messageStream : Nat → Nat → Nat

/-- SHA-256 as a number whose byte i is byte i of the digest, the HSS verification of RFC 8554, the LMS public key of a tree of a height with its SEED and I, the node hashes of that tree, and the LMS signature of a leaf (of the height, SEED, I, the leaf, the stored node hashes and the message): published standards that the spec names and does not restate. Log entry 6. -/
opaque sha256 : List Byte → BitVec 256
opaque hssVerify : List Byte → List Byte → List Byte → Bool
opaque lmsPublic : Nat → BitVec 256 → BitVec 128 → List Byte
opaque lmsNodes : Nat → BitVec 256 → BitVec 128 → List Byte
opaque lmsSign : Nat → BitVec 256 → BitVec 128 → Nat → List Byte → List Byte → List Byte

/-- What a certificate that verifies under Briend's attestation key says: the device's HSS public key and its serial number (R595), whose format is not given. Log entry 6. -/
opaque certificate : List Byte → Option (List Byte × BitVec 128)

/-- The digest of the vendor public key of slot s, which the ROM holds, and of the ROM itself and of the fuse configuration (R588, Table 20-4): values that the spec does not give. Log entry 6. -/
opaque vendorKey : Nat → BitVec 256
opaque romDigest : BitVec 256

/-- The SHA-256 of the fuse configuration, of the life-cycle code, the enable and revoke bits of the slots, the fused SVN and the enable maps of clusters, stacks, ports and cores, whose byte format is not given (Table 20-4); and the core runtime that a firmware payload holds, whose format is not given either: its digest, its instruction words and its scratchpad bytes by address (R575). Log entry 6. -/
opaque fuseDigest : List Nat → BitVec 256
opaque runtimeDigest : List Byte → BitVec 256
opaque runtimeWords : List Byte → List (Nat × BitVec 32)
opaque runtimeBytes : List Byte → List (Nat × List Byte)

/-- The random numbers of the entropy source: the n-th nonce (R605), and the secret when it is drawn after n nonces (R591). Log entry 7. -/
opaque nonce : Nat → BitVec 256
opaque secret : Nat → BitVec 256

/-- The CRC-32 of a cell before it is inverted, over the four bytes of header bits [31:0] and the payload, and the CRC-16 of bits [127:16] of an urgent unit (R459, R471): the spec names no initial value or bit order, and no polynomial for the second. Log entry 8. -/
opaque crc32 : List Byte → BitVec 32
opaque crc16 : BitVec 112 → BitVec 16

/-- Flit i of a service-network packet on VL1, from its source, destination, class and sequence number: R402 names what the two header flits carry without their layout. Log entry 24. -/
opaque svcFlit : Nat → Nat → Nat → Nat → Nat → Word

/-- The servo of R489, whose law the spec leaves to the implementation: from an offset, the frequency learned so far and the TB, the correction of phase and the new frequency, in 2^-16 tick and 2^-16 tick a tick; and how much of the way to a TB_SYNC edge the root goes in a tick (R492). Log entry 9. -/
opaque servo : Int → Int → Nat → Int × Int
opaque syncRate : Int → Nat → Nat

/-- The replies whose content belongs to published standards that the spec names and does not restate: MCTP control messages and debug packets. A function of the row (0 MCTP_CONTROL, 2 DEBUG_PACKET) and of the state's count of such replies. Log entry 11. -/
opaque sidebandReply : Nat → Nat → List Byte

/-- PLDM's message of a sensor reading, from the request, the readings that the state holds (DEV, POWER_OVER, PWR.MEAS, the six stacks' temperatures) and the count of replies, for the sensors that it does not hold; and PLDM's event of a state sensor (0 DEV, 1 POWER_OVER) that has come to a value. Log entry 11. -/
opaque sensorReply : List Byte → List Nat → Nat → List Byte
opaque sensorEvent : Nat → Nat → List Byte

/-- The ticks from the stop of a region entry until a translation point drops it, which R443 leaves open: a function of the point, the entry and the number of its stop. A point is a unit's number on the service network; port k is 12000 + k. Log entry 112. -/
opaque dropAfter : Nat → Nat → Nat → Nat

/-- The DRAM row of a block of a pseudo-channel, and the corrected errors found in a row above which the MC has it repaired: R451 gives neither. Log entry 113. -/
opaque rowOf : Nat → Nat
opaque repairThreshold : Nat

/-- The uncorrectable errors of a stack after which the MC adds it to the field map: Table 22-8 says repeated ones. Log entry 113. -/
opaque stackErrors : Nat

/-- A route program: stream-table entries, and schedule entries at 256p + e. -/
abbrev Program := List (Nat × Word) × List (Nat × Word)

/-- The nine programs of a physical row whose spare stands in, from its spare code and the eight logical programs: R394 gives what the loader removes there and leaves the rewriting itself to it. Log entry 30. -/
opaque displaced : Nat → List Program → List Program

/-- What a topology descriptor says (R576); its format is not given. -/
structure Topo where
  /-- the chip ID that it assigns to this chip -/
  chip     : Nat := 0
  /-- its ports that the descriptor connects, each with the peer's chip and port -/
  links    : List (Nat × Nat × Nat) := []
  /-- its routes: chip and port -/
  routes   : List (Nat × Nat) := []
  root     : Bool := false
  up       : Nat := 0
  /-- every chip of the system -/
  chips    : List Nat := []
  /-- ports whose peer identity is pinned, and ports whose peer must be in FIELD -/
  pinned   : List Nat := []
  field    : List Nat := []
  diameter : Nat := 0
  deriving DecidableEq, Repr, Inhabited

/-- The reading of a topology descriptor's bytes for the chip of a serial number (R576, R578). Log entry 10. -/
opaque topology : List Byte → BitVec 128 → Topo

end Sys2Proof.Config
end

