-- ==== Sys2Proof/Machine/Bits.lean ====
section
/-! DEFINITION. Bit fields, sign extension, byte order and sparse tables: the helpers of every other Machine file. -/

namespace Sys2Proof.Machine

/-- Bits [lo + n - 1 : lo] of a word, as a number. -/
def fld (w : Word) (lo n : Nat) : Nat := w.toNat / 2 ^ lo % 2 ^ n

/-- One bit of a word. -/
def bit (w : Word) (k : Nat) : Bool := w.getLsbD k

/-- A word from (value, lowest bit, width) fields; each value is cut to its width. -/
def pack : List (Nat × Nat × Nat) → Word
  | [] => 0
  | (v, lo, n) :: r => BitVec.ofNat 64 (v % 2 ^ n * 2 ^ lo) ||| pack r

/-- 1 for true, 0 for false. -/
def b2n (b : Bool) : Nat := if b then 1 else 0

/-- A number read as n-bit two's complement. -/
def sextNat (v n : Nat) : Int :=
  let m := v % 2 ^ n
  if n = 0 then 0 else if m < 2 ^ (n - 1) then (m : Int) else (m : Int) - 2 ^ n

/-- A word from an integer, modulo 2^64. -/
def ofInt (i : Int) : Word := BitVec.ofInt 64 i

/-- INT of a value. -/
def tint (w : Word) : TWord := ⟨w, .int⟩

/-- FLT of a value. -/
def tflt (w : Word) : TWord := ⟨w, .flt⟩

/-- RAW of a value. -/
def traw (w : Word) : TWord := ⟨w, .raw⟩

/-- The n little-endian bytes of a number: the byte at the lowest address holds bits [7:0] (R18). -/
def leBytes : Nat → Nat → List Byte
  | 0, _ => []
  | n + 1, v => BitVec.ofNat 8 v :: leBytes n (v / 256)

/-- The number that little-endian bytes spell (R18). -/
def leNat : List Byte → Nat
  | [] => 0
  | b :: r => b.toNat + 256 * leNat r

/-! ## Sparse tables: (key, value) pairs with strictly rising keys; an unlisted key has a default. -/

/-- Reading a sparse table. -/
def mget {α : Type} (d : α) : List (Nat × α) → Nat → α
  | [], _ => d
  | (k, v) :: r, i => if k = i then v else mget d r i

/-- Writing a sparse table, keys kept rising. -/
def mset {α : Type} : List (Nat × α) → Nat → α → List (Nat × α)
  | [], i, x => [(i, x)]
  | (k, v) :: r, i, x =>
    if i < k then (i, x) :: (k, v) :: r
    else if k = i then (i, x) :: r
    else (k, v) :: mset r i x

/-- Removing a key. -/
def mdel {α : Type} : List (Nat × α) → Nat → List (Nat × α)
  | [], _ => []
  | (k, v) :: r, i => if k = i then r else (k, v) :: mdel r i

/-- Changing the value at a key. -/
def mupd {α : Type} (d : α) (m : List (Nat × α)) (i : Nat) (f : α → α) : List (Nat × α) :=
  mset m i (f (mget d m i))

/-- The keys rise strictly and every key is above the bound. -/
def keysAbove {α : Type} : Nat → List (Nat × α) → Bool
  | _, [] => true
  | b, (k, _) :: r => decide (b ≤ k) && keysAbove (k + 1) r

/-- Setting a key of a canonical table in which no entry equals the default: writing the default removes the entry. -/
def cset {α : Type} [DecidableEq α] (d : α) (m : List (Nat × α)) (i : Nat) (x : α) : List (Nat × α) :=
  if x = d then mdel m i else mset m i x

/-- No entry equals the default. -/
def noDefault {α : Type} [DecidableEq α] (d : α) (m : List (Nat × α)) : Bool :=
  m.all fun e => decide (e.2 ≠ d)

/-! ## Byte memories: `Host.Cell` lists in canonical form; an unlisted byte reads zero. -/

end Sys2Proof.Machine
end

