-- ==== Sys2Proof/Machine/Memory.lean ====
section
/-! DEFINITION. Byte memories in one canonical form (strictly rising addresses, no zero entry) and tagged words over them. -/

namespace Sys2Proof.Machine

/-- A byte memory: (address, byte) pairs. -/
abbrev Mem := List Host.Cell

/-- What a byte that nothing has written reads as: every wipe leaves zero (R91, R453, R554). -/
def memDefault : Byte := 0

/-- The canonical form of a byte memory. -/
def Mem.wf (m : Mem) : Bool := keysAbove 0 m && noDefault memDefault m

/-- Reading one byte. -/
def rdByte (m : Mem) (a : Nat) : Byte := mget memDefault m a

/-- Writing one byte, keeping the canonical form. -/
def wrByte (m : Mem) (a : Nat) (b : Byte) : Mem := cset memDefault m a b

/-- Reading n bytes from address a. -/
def rdBytes (m : Mem) (a : Nat) : Nat → List Byte
  | 0 => []
  | n + 1 => rdByte m a :: rdBytes m (a + 1) n

/-- Writing bytes from address a. -/
def wrBytes (m : Mem) (a : Nat) : List Byte → Mem
  | [] => m
  | b :: r => wrBytes (wrByte m a b) (a + 1) r

/-- A little-endian number of n bytes at address a (R18). -/
def rdNat (m : Mem) (a n : Nat) : Nat := leNat (rdBytes m a n)

/-- Storing the n little-endian bytes of a number. -/
def wrNat (m : Mem) (a n v : Nat) : Mem := wrBytes m a (leBytes n v)

/-- A data space: the bytes and the tag side-plane, one tag per 8-byte word (R172, R173). -/
structure Spad where
  bytes : Mem := []
  /-- word index to tag; an unlisted word is EMPTY (R91) -/
  tags  : List (Nat × Tag) := []
  deriving DecidableEq, Repr

/-- The tag of the word that holds byte a. -/
def Spad.tagAt (s : Spad) (a : Nat) : Tag := mget Tag.empty s.tags (a / 8)

/-- Setting the tag of the word that holds byte a. -/
def Spad.setTag (s : Spad) (a : Nat) (t : Tag) : Spad := { s with tags := cset Tag.empty s.tags (a / 8) t }

/-- The tagged word at the 8-aligned address a. -/
def Spad.word (s : Spad) (a : Nat) : TWord := ⟨BitVec.ofNat 64 (rdNat s.bytes a 8), s.tagAt a⟩

/-- Storing a tagged word at the 8-aligned address a: a narrow store of a whole word (R108). -/
def Spad.setWord (s : Spad) (a : Nat) (w : TWord) : Spad :=
  { bytes := wrNat s.bytes a 8 w.val.toNat, tags := cset Tag.empty s.tags (a / 8) w.tag }

/-- A narrow store of the low n bytes of v, which makes the word RAW; an EMPTY word's bytes are zero already (R91, R108). -/
def Spad.setPart (s : Spad) (a n v : Nat) : Spad :=
  { bytes := wrNat s.bytes a n v, tags := cset Tag.empty s.tags (a / 8) .raw }

/-- A wide read of n bytes: value bytes whatever the tags (R174). -/
def Spad.wideRead (s : Spad) (a n : Nat) : List Byte := rdBytes s.bytes a n

/-- The poison mark that a wide read delivers with byte a (R174). -/
def Spad.poisonAt (s : Spad) (a : Nat) : Bool := s.tagAt a == .poison

/-- Whether any of n bytes from a lies in a POISON word. -/
def Spad.poisonIn (s : Spad) (a n : Nat) : Bool :=
  (List.range n).any fun i => s.poisonAt (a + i)

/-- The tags of every word that receives a byte of [a, a+n): POISON where `pz` marks that word, RAW otherwise (R175). -/
def Spad.wideTags (s : Spad) (a : Nat) (pz : Nat → Bool) : Nat → Spad
  | 0 => s
  | n + 1 =>
    let s' := s.setTag a .raw
    let s'' := if pz (a / 8) then s'.setTag a .poison else s'
    Spad.wideTags s'' (a + 1) pz n

/-- A wide write of bytes at a; `pz w` says that the data for word w carry a poison mark (R175). -/
def Spad.wideWrite (s : Spad) (a : Nat) (bs : List Byte) (pz : Nat → Bool) : Spad :=
  Spad.wideTags { s with bytes := wrBytes s.bytes a bs } a pz bs.length

end Sys2Proof.Machine
end

