-- ==== Sys2Proof/Machine/CoreTypes.lean ====
section
/-! DEFINITION. The plain data of one core: threads, queues, tracker, rings, channels, engines, pacing (spec 02 to 11, 17). -/

namespace Sys2Proof.Machine

/-! ## The common enable state machine (R582, Table 19-8) -/

/-- The four states of the enable state machine. -/
inductive EnSt where
  | off | starting | on | stopping
  deriving DecidableEq, Repr

/-- The code that ST fields show. -/
def EnSt.code : EnSt → Nat
  | .off => 0 | .starting => 1 | .on => 2 | .stopping => 3

/-- EN, ST, PEND and CERR of a unit. -/
structure EnFsm where
  en   : Bool := false
  st   : EnSt := .off
  pend : Bool := false
  cerr : Bool := false
  deriving DecidableEq, Repr

/-- A written value of EN (Table 19-8). -/
def EnFsm.write (f : EnFsm) (v : Bool) : EnFsm :=
  match f.st, v with
  | .off, true => { f with en := true, st := .starting }
  | .off, false => f
  | .starting, v => { f with en := v }
  | .on, false => { f with en := false, st := .stopping }
  | .on, true => f
  | .stopping, v => { f with pend := v }

/-- The start completes (Table 19-8); only a STARTING unit moves. -/
def EnFsm.startOk (f : EnFsm) : EnFsm :=
  match f.st with
  | .starting => { f with st := if f.en then .on else .stopping, cerr := false }
  | _ => f

/-- The start is refused (Table 19-8). -/
def EnFsm.startRefused (f : EnFsm) : EnFsm :=
  match f.st with
  | .starting => { f with st := .off, cerr := true, en := false }
  | _ => f

/-- The stop completes (Table 19-8). -/
def EnFsm.stopDone (f : EnFsm) : EnFsm :=
  match f.st with
  | .stopping =>
    if f.pend then { f with st := .starting, pend := false, en := true } else { f with st := .off }
  | _ => f

/-- The unit clears EN on its own account: from ON or STOPPING to OFF, or to STARTING when PEND is set (R582). -/
def EnFsm.ownClear (f : EnFsm) : EnFsm :=
  match f.st with
  | .on | .stopping =>
    if f.pend then { f with st := .starting, pend := false, en := true }
    else { f with st := .off, en := false }
  | _ => f

/-! ## Records, items and packets -/

/-- An error record before its queue stamps it (Table 22-6, R634). -/
structure ErrRec where
  cls    : Nat
  sev    : Nat
  ukind  : Nat := 0
  lunit  : Nat := 0
  punit  : Nat := 0
  key    : Nat := 0
  detail : Nat := 0
  deriving DecidableEq, Repr

/-- A channel message: the header fields of Table 5-4 other than SPLIT, the payload, and the marked payload words. -/
structure Msg where
  epoch : Nat
  chi   : Nat
  seq   : Nat
  cho   : Nat
  chip  : Nat
  lcid  : Nat
  psn   : Bool
  data  : List Byte
  pz    : List Nat := []
  deriving DecidableEq, Repr

/-- An item of a stream (Table 12-3); `pz` lists the data words that carry a poison mark. -/
inductive Item where
  | message  (m : Msg)
  | write    (addr : Word) (data : List Byte) (pz : List Nat)
  | writeResp (addr : Word) (status : Nat)
  | readReq  (addr : Word) (len : Nat)
  | readData (addr : Word) (len status : Nat) (data : List Byte) (pz : List Nat)
  | credit   (epoch cho units : Nat)
  | closeReq (epoch chi : Nat)
  deriving DecidableEq, Repr

/-- What a service-network packet asks or answers (R402, R404, and the chapters of each kind). -/
inductive SvcBody where
  /-- a far read of `len` bytes -/
  | read (addr : Word) (len : Nat)
  /-- its data, the stored tag where there is one, and the marked words -/
  | readResp (data : List Byte) (tag : Tag) (pz : List Nat)
  /-- a far write; `tag` is given by a scalar store of sz = 3, `narrow` by any scalar store -/
  | write (addr : Word) (data : List Byte) (pz : List Nat) (narrow : Bool) (tag : Tag)
  /-- the acknowledgement of a write or an increment -/
  | ack
  /-- an error response of a kind of Table 22-4 -/
  | err (kind : Nat)
  /-- an increment to this counter was discarded on its way, after its sequence number was issued (R334) -/
  | incLost (addr : Word)
  /-- a posted counter increment (R329) -/
  | inc (addr : Word) (amt : Nat)
  /-- an open request to CHI `chi` (R354) -/
  | openReq (chi chip lcid cho : Nat) (dyn : Bool)
  /-- a grant (R355) -/
  | grant (cho epoch : Nat) (slotKind : Bool) (slot units : Nat)
  /-- a refusal (R355), or with a kind of Table 22-4 the error response that an open request meets (R356) -/
  | refusal (cho kind : Nat)
  /-- a dynamic close request (R368) -/
  | closeReq (chi epoch chip lcid cho : Nat)
  /-- a close notice (R369), and whether it answers a close request of its CHO (Table 11-1) -/
  | closeNotice (cho epoch : Nat) (answer : Bool)
  /-- an abandon notice (R373) -/
  | abandon (chi chip lcid cho : Nat)
  /-- returned credit of a dynamic channel (R366) -/
  | credit (cho epoch units : Nat)
  /-- a message of a dynamic channel -/
  | message (m : Msg)
  /-- a management write of a mark or notice: a counter to mark broken (R334) -/
  | markBroken (addr : Word)
  deriving DecidableEq, Repr

/-- What a core's step sends to the rest of the chip. -/
inductive Emit where
  /-- a packet to the unit that a system address names, with the issuer's transaction number -/
  | svc (dst : Word) (xid : Nat) (body : SvcBody)
  /-- an item put on a stream at the core's L-in (R378) -/
  | inject (stream : Nat) (item : Item)
  /-- an error record for the core's cluster controller -/
  | record (r : ErrRec)
  /-- a participating core was reset: its line is broken on the die (R346 cause 1) -/
  | lineBroken (line : Nat)
  /-- a stream fails at this core (R183, R632) -/
  | streamFail (stream : Nat)
  deriving DecidableEq, Repr

/-! ## Threads -/

/-- Table 2-1. -/
inductive ThrState where
  | halt | run | wait | idle | parked
  deriving DecidableEq, Repr

/-- The codes of Table 2-1. -/
def ThrState.code : ThrState → Nat
  | .halt => 0 | .run => 1 | .wait => 2 | .idle => 3 | .parked => 4

/-- Why a thread waits: the WCAUSE codes after Table 2-8. -/
inductive WCause where
  | none | farLoad | counter | sendCredit | queueFull | conflict | trkFull | timer | release | pace | sendRead
  deriving DecidableEq, Repr

/-- The WCAUSE code. -/
def WCause.code : WCause → Nat
  | .none => 0 | .farLoad => 1 | .counter => 2 | .sendCredit => 3 | .queueFull => 4 | .conflict => 5
  | .trkFull => 6 | .timer => 7 | .release => 8 | .pace => 9 | .sendRead => 10

/-- What an event is, for an entry (R135). -/
inductive EvKind where
  | sysc | trap | fault | intr
  deriving DecidableEq, Repr

/-- An event that may make an entry: its code (Table 4-4), sub-cause and address (Table 4-1). -/
structure Ev where
  kind  : EvKind := .fault
  code  : Nat
  sub   : Nat := 0
  addr  : Word := 0
  imp   : Bool := false
  async : Bool := false
  deriving DecidableEq, Repr

/-- The narrow loads (R107). -/
inductive LdKind where
  | word | int | flt | ptr | hnd | part (sz : Nat) (sx : Bool)
  deriving DecidableEq, Repr

/-- The instruction that a waiting thread is held at. -/
inductive WaitOp where
  /-- a narrow load held by the tracker -/
  | load (k : LdKind) (rd ra : Nat) (disp : Int)
  /-- a narrow store held by the tracker; `sz` 3 is ST -/
  | store (sz rd ra : Nat) (disp : Int)
  /-- a BMOV held by the tracker -/
  | bmov (rd ra rb : Nat)
  /-- a far access held by the tracker, with its entry once it has one (R66, R68) -/
  | far (store : Bool) (rd ra sz ty : Nat) (disp : Int) (ent : Option Nat)
  /-- an issued LD.S awaiting its data -/
  | farData (rd sz ty : Nat) (addr : Word) (xid trk : Nat)
  /-- an operation of major 0x3E with q = 0 (its instruction word) -/
  | ctr (iw : Nat)
  /-- an operation bound for a queue, held for a slot or tracker entries (its instruction word) -/
  | queue (iw : Nat)
  /-- a DMAGO held for a slot or tracker entries -/
  | dmago (ra rb : Nat)
  /-- a SEND held for the tracker, credit or an outbound place; `waited` once STALL has counted it -/
  | send (ra rb rc : Nat) (waited : Bool)
  /-- a SEND that has taken credit and reads its payload; its message stands in the core's outbound places -/
  | sendRead (a len : Nat)
  /-- a PACE awaiting its period -/
  | pace (w : Nat)
  /-- a thread of TMASK started before T0 (R526) -/
  | paceStart
  /-- an IN of TMR.n.WAIT -/
  | timer (rd : Nat)
  /-- an OUT held by an earlier engine command (R249, R273) -/
  | out (rd ra : Nat) (imm : Int)
  deriving DecidableEq, Repr

/-- A branch that has issued and whose delay slot has not (R118, R148). -/
structure Slot where
  branch : BitVec 16
  target : Option (BitVec 16)
  reads  : Option Nat
  deriving DecidableEq, Repr

/-- A message that a thread holds (R59). -/
structure HeldMsg where
  ring  : Nat
  pos   : Nat
  epoch : Nat
  deriving DecidableEq, Repr

/-- A BMOV between blocks: its registers and its two tracker entries (R110). -/
structure Bmov where
  rd : Nat
  ra : Nat
  rb : Nat
  rdEnt : Nat
  wrEnt : Nat
  /-- its next block's wait for the tracker has been counted -/
  waited : Bool := false
  deriving DecidableEq, Repr

/-! ## The range tracker -/

/-- One entry of the range tracker (R62): a local range when `loc`, else a range of system addresses; its direction; the step (CORE.STEPS) that issued it. `id` orders the entries by issue (R49). -/
structure TrkEnt where
  id    : Nat
  loc   : Bool
  first : Nat
  len   : Nat
  wr    : Bool
  step  : Nat := 0
  deriving DecidableEq, Repr

/-- One hardware thread (R42, R95, R134, Tables 2-8 and 4-6). -/
structure Thread where
  /-- g1 to g31; an unlisted register is EMPTY (R96) -/
  regs    : List (Nat × TWord) := []
  pc      : BitVec 16 := 0
  ls0     : BitVec 16 := 0
  le0     : BitVec 16 := 0
  lc0     : Word := 0
  ls1     : BitVec 16 := 0
  le1     : BitVec 16 := 0
  lc1     : Word := 0
  /-- FSR [12:0]: TE, RM, FLAGS -/
  fsr     : BitVec 13 := 0
  /-- the mode: true in S mode -/
  smode   : Bool := false
  st      : ThrState := .parked
  prior   : ThrState := .halt
  wcause  : WCause := .none
  waitOp  : Option WaitOp := Option.none
  /-- parked by CORE.CTL.PARK or a debug halt, and not by THR.n.CMD.PARK (Table 2-2) -/
  parkedByBit : Bool := false
  msg     : Option HeldMsg := Option.none
  entry   : BitVec 16 := 0
  startS  : Bool := false
  disp    : Bool := false
  icount  : Nat := 0
  wsteps  : Nat := 0
  xra     : BitVec 16 := 0
  dfh     : Bool := false
  arm     : Bool := true
  ml      : BitVec 3 := 0
  pml     : BitVec 3 := 0
  pmode   : Bool := false
  ds      : Bool := false
  xcause  : Word := 0
  xaddr   : Word := 0
  dra     : BitVec 16 := 0
  /-- DST: PARM, PML, PMODE, DS -/
  dparm   : Bool := false
  dpml    : BitVec 3 := 0
  dpmode  : Bool := false
  dds     : Bool := false
  xpend   : BitVec 5 := 0
  /-- XILVL: TMRL, SWIL, CCL -/
  tmrl    : BitVec 3 := 0
  swil    : BitVec 3 := 0
  ccl     : BitVec 3 := 0
  wdtEn   : Bool := false
  wdtInt  : BitVec 32 := 0
  wdtFrom : Nat := 0
  /-- the window that ended has raised its fault already -/
  wdtFired : Bool := false
  /-- levels of pending DMA abort interrupts, bits 0 and 1 of Table 4-2 -/
  dmaLvl0 : BitVec 3 := 0
  dmaLvl1 : BitVec 3 := 0
  /-- asynchronous faults and notices raised and not yet taken (R683) -/
  notices : List Ev := []
  /-- a mode change whose shadow instruction has not completed (R151) -/
  shadow  : Bool := false
  slot    : Option Slot := Option.none
  bmov    : Option Bmov := Option.none
  /-- the access of a waiting narrow load or store, or of a SEND's payload read, with its place in issue order: it takes no tracker entry, but later accesses wait for it (R66, R69; log entry 33) -/
  place   : Option TrkEnt := Option.none
  /-- a HALT that awaits an allowed boundary (R44) -/
  haltPend : Bool := false
  /-- TMR.n.CMP: EN and TICK -/
  tmrEn   : Bool := false
  tmrTick : Nat := 0
  /-- the work period of this thread (R526) and whether it has marked it done -/
  pw      : Nat := 0
  pdone   : Bool := false
  deriving DecidableEq, Repr

/-- The range tracker (Table 2-9). -/
structure Tracker where
  ents  : List TrkEnt := []
  next  : Nat := 0
  peak  : Nat := 0
  full  : Nat := 0
  confl : Nat := 0
  deriving DecidableEq, Repr

/-- A far write of an issuer that has not been acknowledged (R420, R421): issuer 0-7 a thread, 8 MXE, 9 VXE, 10-11 DMA, 12 ring. -/
structure FarWrite where
  xid    : Nat
  issuer : Nat
  /-- the narrowest scope that holds the target: 0 CORE to 3 SYSTEM (R10) -/
  scope  : Nat
  addr   : Word
  trk    : Option Nat := Option.none
  failed : Bool := false
  inc    : Bool := false
  deriving DecidableEq, Repr

/-! ## Rings and channels -/

/-- Where a message of a ring stands. -/
inductive RMsgSt where
  | undispatched | held | consumed
  deriving DecidableEq, Repr

/-- A message in a ring between HEAD and TAIL, and the units of it that HEAD has still to pass. -/
structure RMsg where
  pos   : Nat
  units : Nat
  chi   : Nat
  epoch : Nat
  len   : Nat
  cho   : Nat
  chip  : Nat
  lcid  : Nat
  st    : RMsgSt := .undispatched
  deriving DecidableEq, Repr

/-- RING.n (Table 5-3). -/
structure Ring where
  fsm    : EnFsm := {}
  aerr   : Bool := false
  slotKind : Bool := false
  pkind  : Nat := 0
  ckind  : Nat := 0
  crkind : Nat := 0
  stream : Nat := 0
  slot   : Nat := 0
  size   : Nat := 0
  base   : Nat := 0
  head   : Nat := 0
  tail   : Nat := 0
  hwrap  : Bool := false
  twrap  : Bool := false
  crt    : Word := 0
  msgs   : List RMsg := []
  /-- units software has asked HEAD to pass that the tracker still holds (R195) -/
  owed   : Nat := 0
  ovfc   : Nat := 0
  deriving DecidableEq, Repr

/-- CHO.n (Tables 11-3 and 11-5). -/
structure Cho where
  fsm    : EnFsm := {}
  dyn    : Bool := false
  ccause : Nat := 0
  stream : Nat := 0
  dchip  : Nat := 0
  dlcid  : Nat := 0
  dchi   : Nat := 0
  epoch  : Nat := 0
  slotKind : Bool := false
  slot   : Nat := 0
  grant  : Nat := 0
  credit : Nat := 0
  msg    : Nat := 0
  stall  : Nat := 0
  deriving DecidableEq, Repr

/-- The sender that an inbound endpoint recorded (CHI.n.PEER). -/
structure Peer where
  chip : Nat
  lcid : Nat
  cho  : Nat
  deriving DecidableEq, Repr

/-- CHI.n (Tables 11-4 and 11-5). -/
structure Chi where
  fsm   : EnFsm := {}
  dyn   : Bool := false
  lvl   : Nat := 0
  hmode : Bool := false
  ring  : Nat := 0
  share : Nat := 0
  haddr : BitVec 16 := 0
  epoch : BitVec 16 := 0
  peer  : Option Peer := Option.none
  /-- what CHI.n.PEER shows beside V: the sender last recorded; a close clears V alone (R369) -/
  last  : Peer := ⟨0, 0, 0⟩
  rcv   : Nat := 0
  drop  : Nat := 0
  deriving DecidableEq, Repr

/-- A message that has taken credit and is not yet injected (R358, R361), or, with no message, a close request behind the channel's messages (R368). -/
structure OutMsg where
  cho    : Nat
  dyn    : Bool
  stream : Nat
  dst    : Word
  /-- the endpoint and epoch that a close request names -/
  dchi   : Nat := 0
  epoch  : Nat := 0
  msg    : Option Msg := Option.none
  /-- the thread that still reads its payload (R360) -/
  reader : Option Nat := Option.none
  deriving DecidableEq, Repr

/-! ## Engines -/

/-- A queue entry: the record of Tables 7-13, 8-11 and 9-9, its tracker entries, and how far it has come. -/
structure QEnt where
  qw      : List Word
  trk     : List Nat := []
  /-- the order of its issue in the core (R49) -/
  seq     : Nat := 0
  started : Bool := false
  /-- the first byte that ring_resolve gave (R199), once started -/
  first   : Nat := 0
  /-- its wait for the tracker has been counted in TRK.CONFL -/
  waited  : Bool := false
  /-- the Philox key and the codebooks in effect at its issue (R213, R227, R273); no queue window shows them -/
  key     : Word := 0
  cb      : List (Nat × Word) := []
  deriving DecidableEq, Repr

/-- What every engine has: queue, parking, halt and the queue window. -/
structure Eng where
  q       : List QEnt := []
  parkReq : Bool := false
  parked  : Bool := false
  halt    : Bool := false
  hcause  : Nat := 0
  pushErr : Bool := false
  srow    : Nat := 0
  qidx    : Nat := 0
  stage   : List (Nat × Word) := []
  /-- events held for want of a valid owner (R684) -/
  held    : List Ev := []
  /-- broken counters and lines whose fault has been delivered (R336, R347) -/
  told    : List Nat := []
  deriving DecidableEq, Repr

/-- A shape tag that is not EMPTY (R234). -/
structure Shape where
  ty : Nat
  r  : Nat
  c  : Nat
  deriving DecidableEq, Repr

/-- A cell set (Table 7-1, R257): the accumulator and pass whose rows it holds, and those rows, by the bytes of the accumulator. -/
structure CellSet where
  of   : Option (Nat × Nat) := none
  data : Mem := []
  deriving DecidableEq, Repr

/-- An entry of the operand cache (Table 7-1, R258): the tile register that it is valid for, and its copy. -/
structure Panel where
  of   : Option Nat := none
  data : Mem := []
  deriving DecidableEq, Repr

/-- The matrix engine (Tables 7-1 and 7-12). Tile selector 0-7 names T0-T7, 8-11 names A0-A3. -/
structure Mxe where
  eng   : Eng := {}
  /-- shape tags by selector; an unlisted tile is EMPTY -/
  tags  : List (Nat × Option Shape) := []
  /-- tile bytes at 4096 × selector + offset -/
  tiles : Mem := []
  /-- poison marks at 32 × selector + row -/
  psn   : List (Nat × Bool) := []
  fPsn  : Bool := false
  fIov  : Bool := false
  flags : BitVec 5 := 0
  srs   : BitVec 32 := 0
  sri   : Word := 0
  tile  : Nat := 0
  word  : Nat := 0
  /-- CB.n.Ww at 4n + w -/
  cb    : List (Nat × Word) := []
  /-- the two cell sets, the operand cache's two entries, and which of each the last pass and the last TMMA used: true for the second -/
  cell0 : CellSet := {}
  cell1 : CellSet := {}
  cellLast : Bool := true
  panel0 : Panel := {}
  panel1 : Panel := {}
  panelLast : Bool := true
  /-- the test tile and the test accumulator, which the Drip alone uses (R233) -/
  testTile : Mem := []
  testAcc : Mem := []
  deriving DecidableEq, Repr

/-- The vector engine (R269, Table 8-10). -/
structure Vxe where
  eng   : Eng := {}
  /-- register bytes at 128 × register + byte -/
  v     : Mem := []
  /-- poison marks at 16 × register + word -/
  psn   : List (Nat × Bool) := []
  fPsn  : Bool := false
  fIov  : Bool := false
  flags : BitVec 5 := 0
  te    : BitVec 5 := 0
  rm    : BitVec 3 := 0
  srs   : BitVec 32 := 0
  sri   : Word := 0
  key   : Word := 0
  reg   : Nat := 0
  word  : Nat := 0
  tLane : Nat := 0
  tExc  : BitVec 5 := 0
  tAddr : BitVec 16 := 0
  deriving DecidableEq, Repr

/-- A read or write piece of a DMA burst (R302, R308). -/
structure Piece where
  xid  : Nat
  addr : Word
  /-- offset of its bytes in the burst -/
  off  : Nat
  len  : Nat
  done : Bool := false
  /-- the abort cause its response gave, 0 for none -/
  bad  : Nat := 0
  deriving DecidableEq, Repr

/-- A burst in flight: its first byte in the order of R299, its bytes as they arrive, and its pieces. -/
structure Burst where
  idx    : Nat
  first  : Nat
  len    : Nat
  data   : List (Nat × Byte) := []
  pz     : List (Nat × Bool) := []
  reads  : List Piece := []
  writes : List Piece := []
  wrote  : Bool := false
  /-- its start has been released: false while a pace boundary is awaited (R306, R523) -/
  due    : Bool := true
  /-- its reads have been performed or requested -/
  live   : Bool := true
  /-- DMA.n.BYTES has counted it (R321) -/
  counted : Bool := false
  /-- the abort cause that struck in it, 0 for none -/
  bad    : Nat := 0
  deriving DecidableEq, Repr

/-- A transfer that has become the head and started (R295, R304). -/
structure DmaRun where
  t0     : Nat
  /-- bytes of the transfer whose bursts have started, in the order of R299 -/
  started : Nat := 0
  /-- number of bursts started -/
  count  : Nat := 0
  bursts : List Burst := []
  /-- bytes of all completed leading bursts -/
  done   : Nat := 0
  /-- an abort is under way: its cause so far (R316) -/
  abort  : Option Nat := Option.none
  /-- the status record once written: the transaction numbers of its writes that are not answered (R316) -/
  status : Option (List Nat) := Option.none
  /-- a write of the status record has failed -/
  statusBad : Bool := false
  /-- the first bytes that ring_resolve gave the two ends -/
  srcRes : Nat := 0
  dstRes : Nat := 0
  deriving DecidableEq, Repr

/-- DMA.n (Table 9-8). -/
structure Dma where
  eng    : Eng := {}
  fsm    : EnFsm := {}
  serr   : Bool := false
  abpend : Bool := false
  cause  : Nat := 0
  /-- POS: I2, I1, I0 and OFF as the spec lays them out -/
  pos    : Word := 0
  pcnt   : Nat := 0
  bytes  : Nat := 0
  xfers  : Nat := 0
  aborts : Nat := 0
  run    : Option DmaRun := Option.none
  /-- the tick at which the head was first at the head with no tracker conflict left (R304) -/
  headAt : Option Nat := Option.none
  deriving DecidableEq, Repr

/-! ## Pacing -/

/-- A paced action (R522). -/
inductive PaceAct where
  | send (e : Emit)
  | arrive (line : Nat)
  | burst (ch : Nat)
  deriving DecidableEq, Repr

/-- A held action with the work period it carries. -/
structure HeldAct where
  period : Nat
  act    : PaceAct
  deriving DecidableEq, Repr

/-- Pace control (Table 17-6). -/
structure Pace where
  mode     : Bool := false
  cerr     : Bool := false
  t0       : Nat := 0
  per      : Nat := 0
  maint    : Nat := 0
  tmask    : BitVec 8 := 0
  b0m1     : Nat := 0
  b1m1     : Nat := 0
  work     : Nat := 0
  rel      : Nat := 0
  slips    : Nat := 0
  lastslip : Nat := 0
  peak     : Nat := 0
  held     : List HeldAct := []
  /-- the index of the next boundary whose release has not begun (R525) -/
  bnext    : Nat := 0
  deriving DecidableEq, Repr

/-! ## The core -/

/-- One core (Tables 2-6, 2-7, 4-7). -/
structure Core where
  /-- held in core reset: its cluster is not ON, or the core has failed (R584, R649) -/
  held    : Bool := true
  lock    : Bool := false
  park    : Bool := false
  dispen  : Bool := false
  debug   : Bool := false
  qown    : BitVec 16 := 0
  /-- CORE.STEPS -/
  steps   : Nat := 0
  thr     : List (Nat × Thread) := []
  /-- ENT.n: EN, ML and ADDR -/
  entEn   : List (Nat × Bool) := []
  entMl   : List (Nat × BitVec 3) := []
  entAddr : List (Nat × BitVec 16) := []
  exv     : BitVec 16 := 0
  irqv    : BitVec 16 := 0
  dfv     : BitVec 16 := 0
  vecmode : Bool := true
  nxmap   : Word := 0
  /-- instruction words by index; an unlisted word holds what the wipe leaves -/
  imem    : List (Nat × BitVec 32) := []
  /-- words that carry the mark of an uncorrectable error (R644) -/
  imark   : List (Nat × Bool) := []
  spad    : Spad := {}
  rings   : List (Nat × Ring) := []
  cho     : List (Nat × Cho) := []
  chi     : List (Nat × Chi) := []
  out     : List OutMsg := []
  sc      : List (Nat × Word) := []
  scBrk   : BitVec 48 := 0
  part    : BitVec 8 := 0
  arrive  : BitVec 8 := 0
  bgen    : List (Nat × Word) := []
  mxe     : Mxe := {}
  vxe     : Vxe := {}
  dma0    : Dma := {}
  dma1    : Dma := {}
  trk     : Tracker := {}
  pace    : Pace := {}
  writes  : List FarWrite := []
  xid     : Nat := 0
  seq     : Nat := 0
  deriving DecidableEq, Repr

end Sys2Proof.Machine
end

