-- ==== Sys2Proof/Machine/ChipTypes.lean ====
section
/-! DEFINITION. The plain data of the chip around its cores: mesh, service network, HBM, links, time, host interface, jobs, bring-up, security, power, errors, management and pins (spec 10, 12, 14, 15, 18 to 24). -/

namespace Sys2Proof.Machine

/-! ## Data mesh (spec 12) -/

/-- A flit (R379, Table 12-2). `kind` is the item kind of Table 12-3 that its stream carries: 0 message, 1 write, 2 write response, 3 read request, 4 read data, 5 credit return, 6 close request. -/
structure Flit where
  stream : Nat
  kind   : Nat := 0
  hd     : Bool
  tr     : Bool
  ovf    : Bool := false
  psn    : BitVec 8 := 0
  data   : List Byte
  deriving DecidableEq, Repr

/-- A buffered flit: the output ports that have taken it, and the pair it belongs to when a split made it (R386, R508). -/
structure BufFlit where
  f    : Flit
  took : BitVec 5 := 0
  pair : Option Nat := none
  deriving DecidableEq, Repr

/-- An output port of a router or endpoint (R387, R391, R399, Table 12-6). -/
structure Port where
  /-- PST: 0 off, 1 sending, 2 waiting, 3 stopped -/
  pst    : Nat := 0
  pc     : Nat := 0
  lc0    : Nat := 0
  lc1    : Nat := 0
  /-- flits of the running entry already sent -/
  sent   : Nat := 0
  flits  : Nat := 0
  sticky : Bool := false
  /-- the TB at which the port began to wait at its entry, and whether that wait has been reported -/
  since  : Nat := 0
  told   : Bool := false
  deriving DecidableEq, Repr

/-- A data-mesh router, a memory port or a link-port router (Table 12-6). -/
structure Router where
  fsm    : EnFsm := {}
  wdog   : BitVec 32 := 0
  werr   : Bool := false
  fail   : Bool := false
  stall  : BitVec 5 := 0
  ports  : List (Nat × Port) := []
  stab   : List (Nat × Word) := []
  /-- SCHED.p.e at 256p + e -/
  sched  : List (Nat × Word) := []
  /-- input buffers by input port, oldest first -/
  bufs   : List (Nat × List BufFlit) := []
  /-- streams that have failed here since the last start -/
  failed : List Nat := []
  /-- the number of the next split pair -/
  pairs  : Nat := 0
  deriving DecidableEq, Repr

/-! ## Service network (spec 12 R401 to R405, R409) -/

/-- A packet that its source keeps until it is acknowledged, or that a link has brought (R402, R404). Units are numbered 65536 × chip + the unit's number on its chip. -/
structure SvcPkt where
  src     : Nat
  dst     : Nat
  cls     : Nat
  seq     : Nat
  /-- the destination system address -/
  addr    : Word
  /-- the source's system address, for an answer -/
  back    : Word
  xid     : Nat
  body    : SvcBody
  /-- an HBM target: its byte key, translated at the source (R441) -/
  phys    : Option Nat := none
  sentAt  : Nat := 0
  /-- the TB of its first sending -/
  born    : Nat := 0
  tries   : Nat := 0
  /-- the destination has accepted it -/
  arrived : Bool := false
  /-- it came in on a link: its source keeps it on another chip; and the port that brought it -/
  foreign : Bool := false
  inPort  : Nat := 0
  deriving DecidableEq, Repr

/-- A packet that a unit has accepted and whose own command is awaited. -/
structure InMsg where
  unit : Nat
  src  : Nat
  addr : Word
  back : Word
  xid  : Nat
  body : SvcBody
  phys : Option Nat := none
  deriving DecidableEq, Repr

/-- The service network's state on this chip. -/
structure Svc where
  out    : List SvcPkt := []
  /-- next sequence number by source, destination and class -/
  nextSeq : List (Nat × Nat) := []
  /-- next expected number by source, destination and class -/
  expect : List (Nat × Nat) := []
  inbox  : List InMsg := []
  deriving DecidableEq, Repr

/-! ## Barrier lines (spec 10 R343 to R347) -/

/-- BLX.n, and what the die root keeps of a line. -/
structure Blx where
  isLocal : Bool := false
  root  : Bool := false
  upv   : Bool := false
  up    : Nat := 0
  down  : BitVec 8 := 0
  brk   : Bool := false
  /-- ports on which an ARRIVE of the current generation has come in -/
  got   : BitVec 8 := 0
  /-- this die has sent ARRIVE for the current generation -/
  sent  : Bool := false
  /-- the generation's parity -/
  parity : Bool := false
  deriving DecidableEq, Repr

/-! ## HBM (spec 14) -/

/-- How far the front item of a memory port has been accepted: its runs, the bytes and marked words read so far (Table 14-4). -/
structure Accept where
  runs : Nat := 0
  data : List Byte := []
  pz   : List Nat := []
  deriving DecidableEq, Repr

/-- HBM.h: registers, contents and markers (Table 14-5, R444, R445). -/
structure Hbm where
  fsm     : EnFsm := {}
  hotref  : Bool := false
  patrol  : Bool := true
  refused : Bool := false
  temp    : Nat := 0
  /-- doubled refresh is in force (R449) -/
  doubled : Bool := false
  ce      : Nat := 0
  ue      : Nat := 0
  passes  : Nat := 0
  /-- the 32-byte word that patrol scrub reads next, in order of block and pseudo-channel -/
  scrubWord : Nat := 0
  /-- the TB at which the running patrol pass began, and whether it has been recorded as overdue -/
  passFrom : Nat := 0
  late    : Bool := false
  ppr     : Nat := 0
  mem     : Mem := []
  /-- 32-byte words that hold the poison marker -/
  mark    : List (Nat × Bool) := []
  /-- mesh items accepted since the last service slot, by pseudo-channel (R437) -/
  slots   : List (Nat × Nat) := []
  /-- the next refresh window's due tick, and the end of the last one opened (R448) -/
  due     : Nat := 0
  winEnd  : Nat := 0
  /-- per-bank refreshes made, by pseudo-channel (R447) -/
  bank    : List (Nat × Nat) := []
  /-- front items of the memory ports that are partly accepted, by channel -/
  taken   : List (Nat × Accept) := []
  /-- commands that have met a parity error (Table 14-1) -/
  parity  : Nat := 0
  /-- words that the Drip has found uncorrectable, and corrected with their counts; rows under soft repair, as pseudo-channel and row (R451) -/
  found   : List Nat := []
  weak    : List (Nat × Nat) := []
  fixed   : List (Nat × Nat) := []
  deriving DecidableEq, Repr

/-- REGION.n (Table 14-6). -/
structure Region where
  fsm   : EnFsm := {}
  mode  : Nat := 0
  tgt   : Nat := 0
  ch    : Nat := 0
  pbase : Nat := 0
  vbase : Nat := 0
  size  : Nat := 0
  /-- a reserved field was last written other than zero: of CFG, VBASE and SIZE -/
  rsvd  : BitVec 3 := 0
  /-- the TB at which its last stop began, and the number of stops (R441) -/
  stopAt : Nat := 0
  stops : Nat := 0
  deriving DecidableEq, Repr

/-! ## Links (spec 15) -/

/-- What a VL1 cell carries of a packet: the packet itself and whether this cell is its last (R461). -/
inductive SvcWire where
  | pkt (p : SvcPkt) (last : Bool)
  | ack (src dst cls seq : Nat)
  deriving DecidableEq, Repr

/-- The content of a data cell. -/
inductive CellBody where
  | vl0 (fs : List Flit)
  | vl1 (w : SvcWire)
  | idle
  deriving DecidableEq, Repr

/-- A cell: SEQ, ACK and its content; its other header fields follow from the content (Table 15-2). -/
structure Cell where
  seq  : Nat
  ack  : Nat
  body : CellBody
  deriving DecidableEq, Repr

/-- An urgent unit: KIND, USEQ and the 96-bit body of Table 15-5. -/
structure Urgent where
  kind : Nat
  useq : Nat := 255
  body : BitVec 96
  deriving DecidableEq, Repr

/-- A cell as received: with the CRC-32 that came with it (R459). -/
structure RxCell where
  cell : Cell
  crc  : BitVec 32
  deriving DecidableEq, Repr

/-- An urgent unit as received: with the CRC-16 that came with it (R471). -/
structure RxUnit where
  unit : Urgent
  crc  : BitVec 16
  deriving DecidableEq, Repr

/-- What a receiver finds of a lane: the codeword count that it names for a swap, and whether the lane is lost outright (R470, R476). -/
structure LaneFault where
  at_  : Nat
  lost : Bool
  deriving DecidableEq, Repr

/-- What a port has put on its lanes. -/
inductive Sent where
  | cell (c : Cell)
  | unit (u : Urgent)
  deriving DecidableEq, Repr

/-- PORT.k (Table 15-10, R466 to R478). -/
structure Lnk where
  fsm    : EnFsm := {}
  fec    : Nat := 0
  sparen : Bool := true
  spthr  : Nat := 0x40
  dcause : Nat := 0
  miswired : Bool := false
  long   : Bool := false
  spared : Bool := false
  /-- physical lane of a logical lane that sparing has replaced; (8, 8) when LANE.8 itself failed in training -/
  lmap   : List (Nat × Nat) := []
  delay  : Nat := 0
  fecce  : Nat := 0
  fecue  : Nat := 0
  crce   : Nat := 0
  replay : Nat := 0
  peerV  : Bool := false
  peerChip : Nat := 0
  peerPort : Nat := 0
  /-- cells: next SEQ, unacknowledged cells with their send counts, next expected SEQ, last SEQ received good -/
  seq    : Nat := 0
  held   : List (Cell × Nat) := []
  expSeq : Nat := 0
  lastAck : Nat := 127
  /-- REPLAY has been asked for the expected SEQ -/
  asked  : Bool := false
  /-- cells to be sent again, oldest first -/
  resend : List Cell := []
  /-- the TB of the last progress in ACK, of the last replay or progress, of the last LCREDIT, and of the write of EN = 0 -/
  progAt : Nat := 0
  rpAt   : Nat := 0
  lcAt   : Nat := 0
  stopAt : Nat := 0
  /-- cumulative cells sent and reported freed, by virtual lane (R468) -/
  sent0  : Nat := 0
  sent1  : Nat := 0
  free0  : Nat := 0
  free1  : Nat := 0
  /-- cumulative cells freed here, and what has been reported of them -/
  freed0 : Nat := 0
  freed1 : Nat := 0
  told0  : Nat := 0
  told1  : Nat := 0
  /-- flits of each received VL0 cell that its router has not buffered yet -/
  rx0    : List Nat := []
  /-- VL0 cells sent since the last VL1 cell -/
  since1 : Nat := 0
  /-- packets waiting for VL1 -/
  tx1    : List SvcWire := []
  /-- a packet arriving in pieces -/
  rx1    : List SvcWire := []
  /-- urgent units: next USEQ, unacknowledged, expected, ready to send, cells since the last unit -/
  useq   : Nat := 0
  uheld  : List Urgent := []
  uexp   : Nat := 0
  uready : List Urgent := []
  gap    : Nat := 4
  /-- the codeword count of an agreed lane swap and its failing lane -/
  swap   : Option (Nat × Nat) := none
  /-- codewords received; corrected symbols by physical lane in the 1 ms window of this number (R476) -/
  cwords : Nat := 0
  laneErr : List (Nat × Nat) := []
  errWin : Nat := 0
  /-- symbols that FEC has corrected, by lane (Table 23-8) -/
  laneSum : List (Nat × Nat) := []
  /-- the TB of the last measurement of the link delay (R488) -/
  delayAt : Nat := 0
  /-- the last delay measurement awaits its response since this TB and fraction, in 2^-16 tick -/
  asking : Option Nat := none
  /-- what the port has put on its lanes, oldest first -/
  tx     : List Sent := []
  deriving DecidableEq, Repr

/-! ## Host interface and jobs (spec 18) -/

/-- CRT.c: V and PORT (R481). -/
structure Crt where
  v    : Bool := false
  port : Nat := 0
  deriving DecidableEq, Repr

/-- One of the three host rings (Table 18-4). -/
structure HRing where
  base  : Word := 0
  en    : Bool := false
  log2n : Nat := 0
  head  : Nat := 0
  tail  : Nat := 0
  /-- PHASE of the pass that is being written (R548) -/
  phase : Bool := true
  deriving DecidableEq, Repr

/-- What the endpoint sends to the host, oldest first. -/
inductive HostMsg where
  | write (addr : Word) (data : List Byte)
  | read (addr : Word) (len tag : Nat)
  /-- the completion of a host read: its bytes, EP and whether it is Unsupported Request -/
  | cpl (data : List Byte) (ep ur : Bool)
  | msix (v : Nat)
  /-- the answer to a configuration request: Request Retry Status, or the vendor and device IDs (R2) -/
  | cfg (retry : Bool) (vendor devid : Nat)
  /-- an AER report of a non-fatal error -/
  | aer
  /-- an MCTP response -/
  | sideband (data : List Byte)
  deriving DecidableEq, Repr

/-- A fetched command (R546, R547). -/
structure HCmd where
  words   : List Word
  deriving DecidableEq, Repr

/-- HWT.n: a host window entry (R542, R543). -/
structure Hwt where
  addr  : Nat
  len   : Nat
  read  : Bool
  write : Bool
  deriving DecidableEq, Repr

/-- A host access to an aperture that waits for the ones before it or for accept slots (R432, R436): whether to BAR4, whether a read, its bytes, and the doorbells received before it that are not yet delivered. -/
structure HostReq where
  bar4  : Bool
  read  : Bool
  addr  : Nat
  len   : Nat
  data  : List Byte := []
  ep    : Bool := false
  bells : Nat := 0
  deriving DecidableEq, Repr

/-- HIF and the endpoint (Table 18-4). -/
structure Hif where
  dev    : Nat := 0
  job    : Nat := 0
  exit   : BitVec 32 := 0
  cmdq   : HRing := {}
  cplq   : HRing := {}
  evq    : HRing := {}
  evlost : Nat := 0
  /-- event records lost and not yet reported -/
  evunrep : Nat := 0
  bme    : Bool := false
  msixEn : Bool := false
  /-- MSI-X messages that wait for the function's enable -/
  msixPba : List Nat := []
  /-- the words of the MSI-X table (Table 18-3) -/
  msixTab : List (Nat × Word) := []
  hwt    : List (Nat × Hwt) := []
  cmds   : List HCmd := []
  /-- completions not yet written: tag, OP, status, word 1 (R538, R548) -/
  owed   : List (Nat × Nat × Nat × Word) := []
  /-- tags of RESET commands whose job clear or warm reset is in progress -/
  clearTags : List Nat := []
  warmTags : List Nat := []
  /-- host-window writes forwarded and not acknowledged -/
  wins   : List InMsg := []
  /-- host-window reads in flight, by tag -/
  reads  : List (Nat × InMsg) := []
  /-- every read in flight, with the number of unacknowledged writes before it (R431) -/
  flush  : List (Nat × Nat) := []
  tag    : Nat := 0
  bells  : List (Nat × Nat) := []
  /-- accesses to the apertures in arrival order -/
  bar    : List HostReq := []
  out    : List HostMsg := []
  deriving DecidableEq, Repr

/-- The contents of a section of a loadable (Table 18-10); the byte formats within a section are not given. -/
inductive Section where
  | image (lcid : Nat) (words : List (Nat × BitVec 32)) (nx : Word)
  | route (node : Nat) (stab sched : List (Nat × Word))
  | config (lcid : Nat) (regs : List (Nat × Word)) (notice : List (Nat × Nat))
  | region (regs : List (Nat × Word × Word × Word))
  | pace (mode : Bool) (per maint : Nat) (tmask : BitVec 8) (bpp : Word) (off : Nat) (vp : Nat)
  | part (bar : List (Nat × BitVec 8)) (blx : List (Nat × Word))
  | seed (seed : Word)
  | threads (lcid : Nat) (ctl : List (Nat × Word))
  | service (lcids : List Nat)
  deriving DecidableEq, Repr

/-- A section with the chip that it names (R551). -/
structure Sec where
  chip : Nat
  sec  : Section
  deriving DecidableEq, Repr

/-- The job that is loaded (R550 to R554). -/
structure Job where
  /-- threads to start, as core and thread -/
  toStart : List (Nat × Nat) := []
  /-- the pace section: mode, T0 offset, period, maintenance ratio; and T0 once the job starts -/
  paced   : Bool := false
  t0off   : Nat := 0
  per     : Nat := 0
  maint   : Nat := 0
  t0      : Nat := 0
  /-- static outbound endpoints whose OPEN the load awaits, as core and CHO -/
  opening : List (Nat × Nat) := []
  /-- the LOAD's tag and section count while it waits -/
  loadTag : Nat := 0
  nsec    : Nat := 0
  /-- an accepted START: its tag and tick -/
  start   : Option (Nat × Nat) := none
  /-- notice threads by core and ring, at 16 × core + ring -/
  notice  : List (Nat × Nat) := []
  service : List Nat := []
  /-- a job has started since the last chip reset (R490) -/
  started : Bool := false
  deriving DecidableEq, Repr

/-! ## Bring-up, the unit map and non-volatile state (spec 19, 20, 23) -/

/-- Fuses (R1, R3, R565, R588 to R603). -/
structure Fuses where
  /-- 0 DRE1-480, 1 -400, 2 -320, 3 -320L -/
  part     : Nat := 0
  clusters : BitVec 48 := BitVec.ofNat 48 (2 ^ 48 - 1)
  sites    : BitVec 6 := 63
  ports    : BitVec 8 := 255
  /-- physical cores failed at test -/
  failed   : List Nat := []
  serial   : BitVec 128 := 0
  lc       : Nat := 2
  slotEn   : BitVec 4 := 1
  slotRev  : BitVec 4 := 0
  svn      : Nat := 0
  claims   : Nat := 0
  kill     : Bool := false
  /-- the device secret, burnt at PROVISIONED (R591) -/
  secret   : Option (BitVec 256) := some 0
  /-- the SHA-256 of the top tree's root (R595) -/
  rootHash : BitVec 256 := 0
  deriving DecidableEq, Repr

/-- SPI NOR (Table 23-7): an empty list is an erased copy or slot. -/
structure Nor where
  imgA   : List Byte := []
  imgB   : List Byte := []
  fm0    : List Byte := []
  fm1    : List Byte := []
  topo0  : List Byte := []
  topo1  : List Byte := []
  /-- the topology copy in force -/
  topoCur : Bool := false
  /-- the identity region: the certificate, and the node hashes of the top tree (R595) -/
  cert   : List Byte := []
  nodes  : List Byte := []
  repairs : List (Nat × Nat × Nat) := []
  wearW  : Nat := 0
  wearE  : Nat := 0
  /-- a half has been found to need more than 40 mV (R622) -/
  overW  : Bool := false
  overE  : Bool := false
  deriving DecidableEq, Repr

/-- The effective unit map (Table 19-3). -/
structure UMap where
  devid    : Nat := 0
  clusters : BitVec 48 := 0
  sites    : BitVec 6 := 0
  ports    : BitVec 8 := 0
  /-- spare codes at 8 × cluster + row; an unlisted row has code 8 -/
  rows     : List (Nat × Nat) := []
  deriving DecidableEq, Repr

/-- BRG, and what bring-up keeps (Table 19-10). -/
structure Brg where
  fcause : Nat := 0
  acc    : BitVec 5 := 0
  hold   : BitVec 5 := 0
  phase  : Nat := 0
  src    : Bool := false
  alone  : Bool := false
  mapdig : BitVec 256 := 0
  ptb    : List (Nat × Nat) := []
  umap   : UMap := {}
  /-- physical cores and stacks, ports and clusters failed in this boot -/
  bad    : List Nat := []
  badSites : BitVec 6 := 0
  badClusters : BitVec 48 := 0
  /-- the boot straps, latched at the end of phase 1 -/
  straps : Nat := 0
  /-- the ROM takes a host push -/
  pushing : Bool := false
  /-- the firmware image that runs -/
  image  : List Byte := []
  topo   : Option Config.Topo := none
  /-- the SHA-256 of the topology descriptor in force; zero when stand-alone (R576, Table 20-4) -/
  topoDig : BitVec 256 := 0
  /-- a failure of bring-up that DEV FAILED stands for, or of service, and whether it lies in the MC itself -/
  mcDead : Bool := false
  /-- this boot is a warm reset -/
  warm   : Bool := false
  deriving DecidableEq, Repr

/-- SEC (Table 20-10). -/
structure SecBlk where
  terr   : Nat := 0
  dscope : BitVec 8 := 0
  idok   : Bool := false
  debug  : Bool := false
  slot   : Nat := 0
  image  : Nat := 0
  fwver  : Nat := 0
  commit : Bool := false
  runtime : BitVec 256 := 0
  /-- 1 when the running image came from slot A -/
  fromA  : Bool := false
  left   : Nat := 0
  busy   : Bool := false
  /-- the claim whose bottom tree serves quotes -/
  claim  : Nat := 0
  nonce  : Nat := 0
  extd   : List (Nat × Word) := []
  mr     : List (Nat × BitVec 256) := []
  /-- a field-map edit token in force: the digest it names -/
  edit   : Option (BitVec 256) := none
  /-- the last JTAG instruction, and whether it was carried out -/
  jtag   : Option (Nat × Bool) := none
  deriving DecidableEq, Repr

/-! ## Power (spec 21) -/

/-- PWR.W or PWR.E. -/
structure Half where
  on   : Bool := true
  set  : Nat := 750
  wear : Nat := 0
  vp   : Nat := 0
  tgt  : Nat := 750
  /-- VREN is asserted -/
  vren : Bool := false
  /-- the TB at which the drain before power-off began (R409) -/
  drain : Option Nat := none
  deriving DecidableEq, Repr

/-- The PWR block (Table 21-6). -/
structure Pwr where
  werr   : Bool := false
  wearex : Bool := false
  floorbrk : Bool := false
  pover  : Bool := false
  ocause : Nat := 0
  hot    : Nat := 0
  /-- the TB at which POWER_OVER became 1 -/
  overAt : Nat := 0
  cap    : Nat := 600
  tlim   : Nat := 105
  duty   : Nat := 1
  fixed  : Nat := 0
  win    : Nat := 0
  mw     : Nat := 0
  /-- governor windows that have ended (R612) -/
  ended  : Nat := 0
  w      : Half := {}
  e      : Half := {}
  busy   : Bool := false
  rcause : Nat := 0
  eoff   : Bool := false
  woff   : Bool := false
  /-- requests that wait for a load to end: whether for the East half, and whether for off (R410) -/
  waits  : List (Bool × Bool) := []
  deriving DecidableEq, Repr

/-! ## Errors and management (spec 22, 23) -/

/-- A record as queues hold it (Table 22-6). -/
structure Rec where
  tb   : Nat
  r    : ErrRec
  rep  : Nat := 1
  lost : Nat := 0
  chip : Nat := 0
  deriving DecidableEq, Repr

/-- An ERR block and its queue (R635 to R638, Table 22-10). -/
structure ErrQ where
  recs  : List Rec := []
  peak  : Nat := 0
  unrep : Nat := 0
  lost  : List (Nat × Nat) := []
  cnt   : List (Nat × Nat) := []
  sel   : Word := 0
  deriving DecidableEq, Repr

/-- A stream that has failed at a node (R632); `here` when it has failed for the unit at that node alone (R183). -/
structure FailPt where
  node   : Nat
  stream : Nat
  here   : Bool := false
  deriving DecidableEq, Repr

/-- The log ring, DRIP.CTL and what the Drip keeps. -/
structure Mc where
  log    : List Rec := []
  total  : Nat := 0
  mirrored : Nat := 0
  drip   : EnFsm := {}
  dripFlags : BitVec 5 := 31
  /-- the MC's write of EN = 1 is due (R640) -/
  dripDue : Bool := false
  /-- uncorrectable words found in a bank, at 64 × physical core + bank, with the TB of each (R643) -/
  ueAt   : List (Nat × List Nat) := []
  /-- engines whose self-test signature has mismatched once, at 2 × physical core + engine (R642) -/
  missed : List Nat := []
  /-- streams that have failed at a node and whose sinks the MC has still to fail (R632) -/
  fails  : List FailPt := []
  /-- failed chips already recorded in this boot (R630) -/
  chipsDown : List Nat := []
  /-- sensors excluded from the governor -/
  sensorsOut : List Nat := []
  /-- heartbeats a CC has missed -/
  beats  : List (Nat × Nat) := []
  /-- the MC has met a fatal error -/
  fatal  : Bool := false
  deriving DecidableEq, Repr

/-- The mailbox (Table 23-5). -/
structure Mbx where
  busy   : Bool := false
  status : Nat := 0
  rlen   : Nat := 0
  req    : Word := 0
  reqbuf : Mem := []
  rspbuf : List Byte := []
  /-- the image or descriptor that pushed chunks assemble -/
  push   : Mem := []
  pushLen : Nat := 0
  /-- the topology descriptor and the field map that pieces are read from, and whether a write has come between two pieces of each -/
  snapT  : List Byte := []
  snapF  : List Byte := []
  staleT : Bool := false
  staleF : Bool := false
  /-- the number of replies whose content the spec leaves to other standards: the model's own counter -/
  asks   : Nat := 0
  deriving DecidableEq, Repr

/-- TEL (Table 23-9). -/
structure Tel where
  en       : Bool := false
  interval : Nat := 0
  log2n    : Nat := 0
  base     : Word := 0
  head     : Nat := 0
  tail     : Nat := 0
  lost     : Nat := 0
  unrep    : Nat := 0
  last     : List Byte := []
  seq      : Nat := 0
  /-- the next window that gets a frame, and the counts at the end of the last one: 3h + i for the sites, 24 + 2l + i for the cores -/
  window   : Nat := 0
  prev     : List (Nat × Nat) := []
  deriving DecidableEq, Repr

/-- TB.CTL, TB.STAT, TB.SYNC, TB.SYNCSET and the servo (Table 15-11, R486 to R492). -/
structure Tbr where
  root   : Bool := false
  upv    : Bool := false
  up     : Nat := 0
  offset : Int := 0
  serr   : Bool := false
  lost   : Bool := false
  depth  : Nat := 0
  state  : Nat := 0
  syncEn : Bool := false
  steparm : Bool := false
  interval : Nat := 0
  syncset : Word := 0
  /-- the root chip ID that beacons carry -/
  rootId : Nat := 0
  /-- consecutive beacons within 1/4 tick, and the TB of the last beacon -/
  good   : Nat := 0
  lastAt : Nat := 0
  /-- the TB at which HOLDOVER began -/
  holdAt : Nat := 0
  /-- the 16 fractional bits of the TB (R486) -/
  frac   : Nat := 0
  /-- the learned frequency, in 2^-16 tick a tick, and what is still to go to a TB_SYNC edge, in 2^-16 tick (R490, R492) -/
  freq   : Int := 0
  toGo   : Int := 0
  /-- the departure of the next tick from one, and the TB of the last departure -/
  slew   : Int := 0
  slewAt : Nat := 0
  beats  : Nat := 0
  /-- the TB of the last TB_SYNC edge -/
  edgeAt : Nat := 0
  deriving DecidableEq, Repr

/-- Pin levels (spec 24). -/
structure Pins where
  pwrgood : Bool := false
  perst   : Bool := false
  throttle : Bool := false
  thermtrip : Bool := false
  bootsrc : Nat := 0
  gpioOe  : BitVec 8 := 0
  gpioOut : BitVec 8 := 0
  gpioIn  : BitVec 8 := 0
  deriving DecidableEq, Repr

/-! ## What commands from outside carry -/

/-- The errors that the codes find in the words of an access: corrected ones, and uncorrectable ones with the bits as received. A word is named by its index in the memory. -/
structure Ecc where
  ce : List Nat := []
  ue : List (Nat × List Byte) := []
  /-- parity errors on the commands of an access: none, one before the retry, or also in the retry (Table 14-1) -/
  par : Nat := 0
  deriving DecidableEq, Repr

/-- What the codes of a flit find (R381, R397, R398): corrected words, uncorrectable words, an uncorrectable sideband. -/
structure FlitEcc where
  /-- data words corrected, and the sideband corrected -/
  fixed    : BitVec 8 := 0
  fixedSide : Bool := false
  words    : BitVec 8 := 0
  sideband : Bool := false
  deriving DecidableEq, Repr

/-- The single-bit errors that the router corrected in a flit: one for each data word and the sideband, which have codes of their own (R381). -/
def FlitEcc.corrections (x : FlitEcc) : Nat := ((List.range 8).countP fun k => x.fixed.getLsbD k && !x.words.getLsbD k) + (if x.fixedSide && !x.sideband then 1 else 0)

/-- How the training of a port ends (Table 15-6, R480, R600, R601). -/
structure Training where
  /-- lanes that failed -/
  lanes   : List Nat := []
  /-- the error ratio meets latency mode, and long mode, at both ends -/
  latency : Bool := true
  longOk  : Bool := true
  delay   : Nat := 0
  peerChip : Nat := 0
  peerPort : Nat := 0
  /-- the peer's certificate and quote verify; the quote is absent; it shows DEBUG; it is the pinned identity -/
  verified : Bool := true
  noQuote : Bool := false
  debug   : Bool := false
  pinOk   : Bool := true
  deriving DecidableEq, Repr

/-- What the end of a bring-up phase finds. -/
structure PhaseEnd where
  /-- phase 1: the fuse sense failed; phase 2: the MC self-test failed -/
  failed   : Bool := false
  /-- phase 5: VDD_FUSE arrives for a claim (R675) -/
  vfuse    : Bool := true
  /-- phase 1: the straps; GPIO pin levels -/
  straps   : Nat := 0
  /-- phase 4: physical cores that fail BIST -/
  bist     : List Nat := []
  /-- phase 5: sites that fail training, and their temperatures -/
  untrained : BitVec 6 := 0
  temps    : List (Nat × Nat) := []
  /-- phase 6: clusters whose Pour check still fails -/
  unpoured : BitVec 48 := 0
  /-- phase 8: chips that did not answer -/
  missing  : List Nat := []
  deriving DecidableEq, Repr

/-- What a soft repair meets: whether the stack accepts it, and the errors that the row's words show when they are read first (R451). -/
structure RepairTry where
  ok : Bool
  x  : Ecc
  deriving DecidableEq, Repr

/-- A burn of the security version: whether VDD_FUSE arrives (R675), and the version that stands when a reset cuts the burn short (R590). -/
structure SvnBurn where
  vfuse : Bool
  cut   : Option Nat
  deriving DecidableEq, Repr

/-- A mailbox or MCTP request: ARG and its bytes; `mailbox` when it is the request that MBX.REQ holds. -/
structure MgtReq where
  mailbox : Bool
  /-- VDD_FUSE arrives when fuses are to be burned (R675) -/
  vfuse   : Bool := true
  arg     : Nat := 0
  bytes   : List Byte := []
  /-- a reset is about to cut the operation short: a claim whose fuse is burnt (R597), an image slot that is erased (R657) -/
  cut     : Bool := false
  deriving DecidableEq, Repr

end Sys2Proof.Machine
end

