-- ==== Sys2Proof/Syntax.lean ====
section
/-! DEFINITION. The commands of the block: one constructor per row of the opcode table, in its order. Rows 1 to 220 are the instruction set (spec 03, 07, 08): `c` and `t` name the core and thread that has fetched the word, and the rest are the fields of its encoding. The other rows are the events (spec 01 R683 and the chapter of each). -/

namespace Sys2Proof

open Machine

/-- A data-mesh router or endpoint: a physical core, 3456 + 16h + j for MP.h.j, 3552 + k for the attachments of PORT.k. -/
abbrev Node := Fin 3560

/-- The commands. -/
inductive Instr where
  | add (c : CoreId) (t : Thr) (rd : Reg) (ra : Reg) (rb : Reg)
  | sub (c : CoreId) (t : Thr) (rd : Reg) (ra : Reg) (rb : Reg)
  | and_ (c : CoreId) (t : Thr) (rd : Reg) (ra : Reg) (rb : Reg)
  | or_ (c : CoreId) (t : Thr) (rd : Reg) (ra : Reg) (rb : Reg)
  | xor (c : CoreId) (t : Thr) (rd : Reg) (ra : Reg) (rb : Reg)
  | shl (c : CoreId) (t : Thr) (rd : Reg) (ra : Reg) (rb : Reg)
  | shr (c : CoreId) (t : Thr) (rd : Reg) (ra : Reg) (rb : Reg)
  | sra (c : CoreId) (t : Thr) (rd : Reg) (ra : Reg) (rb : Reg)
  | mul (c : CoreId) (t : Thr) (rd : Reg) (ra : Reg) (rb : Reg)
  | mulh (c : CoreId) (t : Thr) (rd : Reg) (ra : Reg) (rb : Reg)
  | mulhu (c : CoreId) (t : Thr) (rd : Reg) (ra : Reg) (rb : Reg)
  | div (c : CoreId) (t : Thr) (rd : Reg) (ra : Reg) (rb : Reg)
  | divu (c : CoreId) (t : Thr) (rd : Reg) (ra : Reg) (rb : Reg)
  | rem (c : CoreId) (t : Thr) (rd : Reg) (ra : Reg) (rb : Reg)
  | remu (c : CoreId) (t : Thr) (rd : Reg) (ra : Reg) (rb : Reg)
  | min_ (c : CoreId) (t : Thr) (rd : Reg) (ra : Reg) (rb : Reg)
  | max_ (c : CoreId) (t : Thr) (rd : Reg) (ra : Reg) (rb : Reg)
  | minu (c : CoreId) (t : Thr) (rd : Reg) (ra : Reg) (rb : Reg)
  | maxu (c : CoreId) (t : Thr) (rd : Reg) (ra : Reg) (rb : Reg)
  | ceq (c : CoreId) (t : Thr) (rd : Reg) (ra : Reg) (rb : Reg)
  | clt (c : CoreId) (t : Thr) (rd : Reg) (ra : Reg) (rb : Reg)
  | cltu (c : CoreId) (t : Thr) (rd : Reg) (ra : Reg) (rb : Reg)
  | clz (c : CoreId) (t : Thr) (rd : Reg) (ra : Reg)
  | ctz (c : CoreId) (t : Thr) (rd : Reg) (ra : Reg)
  | popc (c : CoreId) (t : Thr) (rd : Reg) (ra : Reg)
  | addi (c : CoreId) (t : Thr) (rd : Reg) (ra : Reg) (imm : BitVec 16)
  | andi (c : CoreId) (t : Thr) (rd : Reg) (ra : Reg) (imm : BitVec 16)
  | ori (c : CoreId) (t : Thr) (rd : Reg) (ra : Reg) (imm : BitVec 16)
  | xori (c : CoreId) (t : Thr) (rd : Reg) (ra : Reg) (imm : BitVec 16)
  | shli (c : CoreId) (t : Thr) (rd : Reg) (ra : Reg) (amt : BitVec 6)
  | shri (c : CoreId) (t : Thr) (rd : Reg) (ra : Reg) (amt : BitVec 6)
  | srai (c : CoreId) (t : Thr) (rd : Reg) (ra : Reg) (amt : BitVec 6)
  | clti (c : CoreId) (t : Thr) (rd : Reg) (ra : Reg) (imm : BitVec 16)
  | cltui (c : CoreId) (t : Thr) (rd : Reg) (ra : Reg) (imm : BitVec 16)
  | movi (c : CoreId) (t : Thr) (rd : Reg) (imm : BitVec 21)
  | movk (c : CoreId) (t : Thr) (rd : Reg) (hw : Fin 4) (imm : BitVec 16)
  | fadd (c : CoreId) (t : Thr) (rd : Reg) (ra : Reg) (rb : Reg) (rm : BitVec 3)
  | fsub (c : CoreId) (t : Thr) (rd : Reg) (ra : Reg) (rb : Reg) (rm : BitVec 3)
  | fmul (c : CoreId) (t : Thr) (rd : Reg) (ra : Reg) (rb : Reg) (rm : BitVec 3)
  | fdiv (c : CoreId) (t : Thr) (rd : Reg) (ra : Reg) (rb : Reg) (rm : BitVec 3)
  | fsqrt (c : CoreId) (t : Thr) (rd : Reg) (ra : Reg) (rm : BitVec 3)
  | frem (c : CoreId) (t : Thr) (rd : Reg) (ra : Reg) (rb : Reg)
  | fmin (c : CoreId) (t : Thr) (rd : Reg) (ra : Reg) (rb : Reg)
  | fmax (c : CoreId) (t : Thr) (rd : Reg) (ra : Reg) (rb : Reg)
  | fminn (c : CoreId) (t : Thr) (rd : Reg) (ra : Reg) (rb : Reg)
  | fmaxn (c : CoreId) (t : Thr) (rd : Reg) (ra : Reg) (rb : Reg)
  | feq (c : CoreId) (t : Thr) (rd : Reg) (ra : Reg) (rb : Reg)
  | flt (c : CoreId) (t : Thr) (rd : Reg) (ra : Reg) (rb : Reg)
  | fle (c : CoreId) (t : Thr) (rd : Reg) (ra : Reg) (rb : Reg)
  | fun (c : CoreId) (t : Thr) (rd : Reg) (ra : Reg) (rb : Reg)
  | fcpys (c : CoreId) (t : Thr) (rd : Reg) (ra : Reg) (rb : Reg)
  | fneg (c : CoreId) (t : Thr) (rd : Reg) (ra : Reg)
  | fabs (c : CoreId) (t : Thr) (rd : Reg) (ra : Reg)
  | fscalb (c : CoreId) (t : Thr) (rd : Reg) (ra : Reg) (rb : Reg) (rm : BitVec 3)
  | flogb (c : CoreId) (t : Thr) (rd : Reg) (ra : Reg)
  | frint (c : CoreId) (t : Thr) (rd : Reg) (ra : Reg) (rm : BitVec 3)
  | frintx (c : CoreId) (t : Thr) (rd : Reg) (ra : Reg) (rm : BitVec 3)
  | fnup (c : CoreId) (t : Thr) (rd : Reg) (ra : Reg)
  | fndn (c : CoreId) (t : Thr) (rd : Reg) (ra : Reg)
  | fclass (c : CoreId) (t : Thr) (rd : Reg) (ra : Reg)
  | fma (c : CoreId) (t : Thr) (rd : Reg) (ra : Reg) (rb : Reg) (rc : Reg) (rm : BitVec 3)
  | fms (c : CoreId) (t : Thr) (rd : Reg) (ra : Reg) (rb : Reg) (rc : Reg) (rm : BitVec 3)
  | fnma (c : CoreId) (t : Thr) (rd : Reg) (ra : Reg) (rb : Reg) (rc : Reg) (rm : BitVec 3)
  | fnms (c : CoreId) (t : Thr) (rd : Reg) (ra : Reg) (rb : Reg) (rc : Reg) (rm : BitVec 3)
  | fcvtI (c : CoreId) (t : Thr) (rd : Reg) (ra : Reg) (rm : BitVec 3)
  | fcvtU (c : CoreId) (t : Thr) (rd : Reg) (ra : Reg) (rm : BitVec 3)
  | icvtF (c : CoreId) (t : Thr) (rd : Reg) (ra : Reg) (rm : BitVec 3)
  | ucvtF (c : CoreId) (t : Thr) (rd : Reg) (ra : Reg) (rm : BitVec 3)
  | fcvtS (c : CoreId) (t : Thr) (rd : Reg) (ra : Reg) (rm : BitVec 3)
  | scvtF (c : CoreId) (t : Thr) (rd : Reg) (ra : Reg)
  | ld (c : CoreId) (t : Thr) (rd : Reg) (ra : Reg) (disp : BitVec 16)
  | ldI (c : CoreId) (t : Thr) (rd : Reg) (ra : Reg) (disp : BitVec 16)
  | ldF (c : CoreId) (t : Thr) (rd : Reg) (ra : Reg) (disp : BitVec 16)
  | ldP (c : CoreId) (t : Thr) (rd : Reg) (ra : Reg) (disp : BitVec 15)
  | ldH (c : CoreId) (t : Thr) (rd : Reg) (ra : Reg) (disp : BitVec 15)
  | lds (c : CoreId) (t : Thr) (rd : Reg) (ra : Reg) (sz : BitVec 2) (sx : Bool) (disp : BitVec 13)
  | st (c : CoreId) (t : Thr) (rd : Reg) (ra : Reg) (disp : BitVec 16)
  | sts (c : CoreId) (t : Thr) (rd : Reg) (ra : Reg) (sz : BitVec 2) (disp : BitVec 13)
  | bmov (c : CoreId) (t : Thr) (rd : Reg) (ra : Reg) (rb : Reg)
  | bmovBlock (c : CoreId) (t : Thr)
  | in_ (c : CoreId) (t : Thr) (rd : Reg) (ra : Reg) (imm : BitVec 16)
  | out (c : CoreId) (t : Thr) (rd : Reg) (ra : Reg) (imm : BitVec 16)
  | bcc (c : CoreId) (t : Thr) (ra : Reg) (cond : BitVec 3) (off : BitVec 18)
  | jal (c : CoreId) (t : Thr) (rd : Reg) (off : BitVec 21)
  | jalr (c : CoreId) (t : Thr) (rd : Reg) (ra : Reg)
  | loop (c : CoreId) (t : Thr) (lv : Bool) (ra : Reg) (imm : BitVec 13)
  | mft (c : CoreId) (t : Thr) (rd : Reg) (sel : BitVec 13)
  | mtt (c : CoreId) (t : Thr) (ra : Reg) (sel : BitVec 13)
  | sysc (c : CoreId) (t : Thr) (n : BitVec 8)
  | sysret (c : CoreId) (t : Thr)
  | trap (c : CoreId) (t : Thr) (n : BitVec 8)
  | retx (c : CoreId) (t : Thr)
  | retd (c : CoreId) (t : Thr)
  | setm (c : CoreId) (t : Thr) (m : BitVec 8)
  | arm (c : CoreId) (t : Thr)
  | mov (c : CoreId) (t : Thr) (rd : Reg) (ra : Reg)
  | tagof (c : CoreId) (t : Thr) (rd : Reg) (ra : Reg)
  | asraw (c : CoreId) (t : Thr) (rd : Reg) (ra : Reg)
  | asint (c : CoreId) (t : Thr) (rd : Reg) (ra : Reg)
  | asflt (c : CoreId) (t : Thr) (rd : Reg) (ra : Reg)
  | pbase (c : CoreId) (t : Thr) (rd : Reg) (ra : Reg)
  | plen (c : CoreId) (t : Thr) (rd : Reg) (ra : Reg)
  | poff (c : CoreId) (t : Thr) (rd : Reg) (ra : Reg)
  | pperm (c : CoreId) (t : Thr) (rd : Reg) (ra : Reg)
  | psub (c : CoreId) (t : Thr) (rd : Reg) (ra : Reg) (rb : Reg)
  | prdonly (c : CoreId) (t : Thr) (rd : Reg) (ra : Reg)
  | msgptr0 (c : CoreId) (t : Thr) (rd : Reg) (ra : Reg)
  | msgptr1 (c : CoreId) (t : Thr) (rd : Reg) (ra : Reg)
  | schip (c : CoreId) (t : Thr) (rd : Reg) (ra : Reg)
  | skind (c : CoreId) (t : Thr) (rd : Reg) (ra : Reg)
  | mkptr (c : CoreId) (t : Thr) (rd : Reg) (ra : Reg) (rb : Reg) (perm : BitVec 2)
  | mksptr (c : CoreId) (t : Thr) (rd : Reg) (ra : Reg)
  | mkhnd (c : CoreId) (t : Thr) (rd : Reg) (ra : Reg)
  | mkcode (c : CoreId) (t : Thr) (rd : Reg) (ra : Reg)
  | imld (c : CoreId) (t : Thr) (rd : Reg) (ra : Reg)
  | imst (c : CoreId) (t : Thr) (ra : Reg) (rb : Reg)
  | ldS (c : CoreId) (t : Thr) (rd : Reg) (ra : Reg) (sz : BitVec 2) (ty : BitVec 2) (disp : BitVec 12)
  | stS (c : CoreId) (t : Thr) (rd : Reg) (ra : Reg) (sz : BitVec 2) (ty : BitVec 2) (disp : BitVec 12)
  | scinc (c : CoreId) (t : Thr) (q : BitVec 3) (rb : Reg) (n : BitVec 7)
  | scincRel (c : CoreId) (t : Thr) (q : BitVec 3) (sc : BitVec 2) (rb : Reg) (n : BitVec 7)
  | scincR (c : CoreId) (t : Thr) (q : BitVec 3) (ra : Reg) (rb : Reg)
  | scincRRel (c : CoreId) (t : Thr) (q : BitVec 3) (sc : BitVec 2) (ra : Reg) (rb : Reg)
  | waitGe (c : CoreId) (t : Thr) (q : BitVec 3) (sc : BitVec 2) (rb : Reg) (n : BitVec 7)
  | waitBg (c : CoreId) (t : Thr) (q : BitVec 3) (sc : BitVec 2) (rb : Reg) (n : BitVec 7)
  | rel (c : CoreId) (t : Thr) (q : BitVec 3) (sc : BitVec 2)
  | acq (c : CoreId) (t : Thr) (sc : BitVec 2)
  | barr (c : CoreId) (t : Thr) (q : BitVec 3) (sc : BitVec 2) (n : BitVec 7)
  | pace (c : CoreId) (t : Thr)
  | send (c : CoreId) (t : Thr) (ra : Reg) (rb : Reg) (rc : Reg)
  | done (c : CoreId) (t : Thr)
  | open_ (c : CoreId) (t : Thr) (ra : Reg)
  | close (c : CoreId) (t : Thr) (ra : Reg)
  | dmago (c : CoreId) (t : Thr) (ra : Reg) (rb : Reg)
  | dmaabort (c : CoreId) (t : Thr) (ra : Reg)
  | tmma (c : CoreId) (t : Thr) (ad : Fin 4) (ta : Fin 8) (tb : Fin 8) (m1 : Fin 32) (n1 : Fin 32) (k1 : Fin 32) (z : Bool) (kh : Bool) (u : Bool)
  | tload (c : CoreId) (t : Thr) (dst : Fin 16) (ra : Reg) (rb : Reg) (mode : Fin 4) (r1 : Fin 32) (ty : Fin 8) (cb : Fin 4)
  | tstore (c : CoreId) (t : Thr) (src : Fin 16) (ra : Reg) (rb : Reg) (fmt : Fin 8) (r1 : Fin 32) (sr : Bool) (ovn : Bool)
  | tmov (c : CoreId) (t : Thr) (dst : Fin 16) (src : Fin 16) (cv : Fin 8) (sr : Bool) (ovn : Bool) (h : Bool)
  | tmovv (c : CoreId) (t : Thr) (tile : Fin 16) (v : Fin 32) (row : Fin 32) (dir : Bool)
  | tinit (c : CoreId) (t : Thr) (tile : Fin 16) (r1 : Fin 32) (c1 : Fin 64) (ty : Fin 8)
  | trel (c : CoreId) (t : Thr) (tile : Fin 8)
  | arel (c : CoreId) (t : Thr) (tile : Fin 4)
  | vadd (c : CoreId) (t : Thr) (vd : Fin 32) (va : Fin 32) (vb : Fin 32) (rm : Fin 8)
  | vsub (c : CoreId) (t : Thr) (vd : Fin 32) (va : Fin 32) (vb : Fin 32) (rm : Fin 8)
  | vmul (c : CoreId) (t : Thr) (vd : Fin 32) (va : Fin 32) (vb : Fin 32) (rm : Fin 8)
  | vdiv (c : CoreId) (t : Thr) (vd : Fin 32) (va : Fin 32) (vb : Fin 32) (rm : Fin 8)
  | vsqrt (c : CoreId) (t : Thr) (vd : Fin 32) (va : Fin 32) (rm : Fin 8)
  | vmin (c : CoreId) (t : Thr) (vd : Fin 32) (va : Fin 32) (vb : Fin 32)
  | vmax (c : CoreId) (t : Thr) (vd : Fin 32) (va : Fin 32) (vb : Fin 32)
  | vminn (c : CoreId) (t : Thr) (vd : Fin 32) (va : Fin 32) (vb : Fin 32)
  | vmaxn (c : CoreId) (t : Thr) (vd : Fin 32) (va : Fin 32) (vb : Fin 32)
  | vceq (c : CoreId) (t : Thr) (vd : Fin 32) (va : Fin 32) (vb : Fin 32)
  | vclt (c : CoreId) (t : Thr) (vd : Fin 32) (va : Fin 32) (vb : Fin 32)
  | vcle (c : CoreId) (t : Thr) (vd : Fin 32) (va : Fin 32) (vb : Fin 32)
  | vneg (c : CoreId) (t : Thr) (vd : Fin 32) (va : Fin 32)
  | vabs (c : CoreId) (t : Thr) (vd : Fin 32) (va : Fin 32)
  | vcpys (c : CoreId) (t : Thr) (vd : Fin 32) (va : Fin 32) (vb : Fin 32)
  | vexp2 (c : CoreId) (t : Thr) (vd : Fin 32) (va : Fin 32)
  | vlog2 (c : CoreId) (t : Thr) (vd : Fin 32) (va : Fin 32)
  | vrcp (c : CoreId) (t : Thr) (vd : Fin 32) (va : Fin 32)
  | vrsq (c : CoreId) (t : Thr) (vd : Fin 32) (va : Fin 32)
  | vfma (c : CoreId) (t : Thr) (vd : Fin 32) (va : Fin 32) (vb : Fin 32) (vc : Fin 32) (rm : Fin 8)
  | vfms (c : CoreId) (t : Thr) (vd : Fin 32) (va : Fin 32) (vb : Fin 32) (vc : Fin 32) (rm : Fin 8)
  | vfnma (c : CoreId) (t : Thr) (vd : Fin 32) (va : Fin 32) (vb : Fin 32) (vc : Fin 32) (rm : Fin 8)
  | vfnms (c : CoreId) (t : Thr) (vd : Fin 32) (va : Fin 32) (vb : Fin 32) (vc : Fin 32) (rm : Fin 8)
  | viadd (c : CoreId) (t : Thr) (vd : Fin 32) (va : Fin 32) (vb : Fin 32) (w : Fin 4)
  | visub (c : CoreId) (t : Thr) (vd : Fin 32) (va : Fin 32) (vb : Fin 32) (w : Fin 4)
  | viadds (c : CoreId) (t : Thr) (vd : Fin 32) (va : Fin 32) (vb : Fin 32) (w : Fin 4)
  | visubs (c : CoreId) (t : Thr) (vd : Fin 32) (va : Fin 32) (vb : Fin 32) (w : Fin 4)
  | vimul (c : CoreId) (t : Thr) (vd : Fin 32) (va : Fin 32) (vb : Fin 32) (w : Fin 4)
  | vimulh (c : CoreId) (t : Thr) (vd : Fin 32) (va : Fin 32) (vb : Fin 32) (w : Fin 4)
  | vimin (c : CoreId) (t : Thr) (vd : Fin 32) (va : Fin 32) (vb : Fin 32) (w : Fin 4)
  | vimax (c : CoreId) (t : Thr) (vd : Fin 32) (va : Fin 32) (vb : Fin 32) (w : Fin 4)
  | viminu (c : CoreId) (t : Thr) (vd : Fin 32) (va : Fin 32) (vb : Fin 32) (w : Fin 4)
  | vimaxu (c : CoreId) (t : Thr) (vd : Fin 32) (va : Fin 32) (vb : Fin 32) (w : Fin 4)
  | vand (c : CoreId) (t : Thr) (vd : Fin 32) (va : Fin 32) (vb : Fin 32) (w : Fin 4)
  | vor (c : CoreId) (t : Thr) (vd : Fin 32) (va : Fin 32) (vb : Fin 32) (w : Fin 4)
  | vxor (c : CoreId) (t : Thr) (vd : Fin 32) (va : Fin 32) (vb : Fin 32) (w : Fin 4)
  | vshl (c : CoreId) (t : Thr) (vd : Fin 32) (va : Fin 32) (vb : Fin 32) (w : Fin 4)
  | vshr (c : CoreId) (t : Thr) (vd : Fin 32) (va : Fin 32) (vb : Fin 32) (w : Fin 4)
  | vsra (c : CoreId) (t : Thr) (vd : Fin 32) (va : Fin 32) (vb : Fin 32) (w : Fin 4)
  | viceq (c : CoreId) (t : Thr) (vd : Fin 32) (va : Fin 32) (vb : Fin 32) (w : Fin 4)
  | viclt (c : CoreId) (t : Thr) (vd : Fin 32) (va : Fin 32) (vb : Fin 32) (w : Fin 4)
  | vicltu (c : CoreId) (t : Thr) (vd : Fin 32) (va : Fin 32) (vb : Fin 32) (w : Fin 4)
  | vbsl (c : CoreId) (t : Thr) (vd : Fin 32) (va : Fin 32) (vb : Fin 32) (w : Fin 4)
  | viabs (c : CoreId) (t : Thr) (vd : Fin 32) (va : Fin 32) (w : Fin 4)
  | vcvtDf16 (c : CoreId) (t : Thr) (vd : Fin 32) (va : Fin 32) (part : Fin 4) (sr : Bool) (ovn : Bool)
  | vcvtDf8 (c : CoreId) (t : Thr) (vd : Fin 32) (va : Fin 32) (part : Fin 4) (sr : Bool) (ovn : Bool)
  | vcvtFDf16 (c : CoreId) (t : Thr) (vd : Fin 32) (va : Fin 32) (part : Fin 4)
  | vcvtFDf8 (c : CoreId) (t : Thr) (vd : Fin 32) (va : Fin 32) (part : Fin 4)
  | vcvtI32 (c : CoreId) (t : Thr) (vd : Fin 32) (va : Fin 32) (rm : Fin 8)
  | vcvtFI32 (c : CoreId) (t : Thr) (vd : Fin 32) (va : Fin 32) (rm : Fin 8)
  | vcvtI32I16 (c : CoreId) (t : Thr) (vd : Fin 32) (va : Fin 32) (part : Fin 4)
  | vcvtI16 (c : CoreId) (t : Thr) (vd : Fin 32) (va : Fin 32) (part : Fin 4)
  | vcvtI32Di8 (c : CoreId) (t : Thr) (vd : Fin 32) (va : Fin 32) (part : Fin 4)
  | vcvtDi8 (c : CoreId) (t : Thr) (vd : Fin 32) (va : Fin 32) (part : Fin 4)
  | vqnt32 (c : CoreId) (t : Thr) (vd : Fin 32) (va : Fin 32) (rb : Reg)
  | vqnt64 (c : CoreId) (t : Thr) (vd : Fin 32) (va : Fin 32) (rb : Reg) (part : Fin 4)
  | vdq32 (c : CoreId) (t : Thr) (vd : Fin 32) (va : Fin 32) (rb : Reg) (rm : Fin 8)
  | vdq64 (c : CoreId) (t : Thr) (vd : Fin 32) (va : Fin 32) (rb : Reg) (part : Fin 4) (rm : Fin 8)
  | vgexp (c : CoreId) (t : Thr) (vd : Fin 32) (va : Fin 32)
  | vld (c : CoreId) (t : Thr) (vd : Fin 32) (ra : Reg)
  | vlds (c : CoreId) (t : Thr) (vd : Fin 32) (ra : Reg) (rb : Reg)
  | vst (c : CoreId) (t : Thr) (vd : Fin 32) (ra : Reg) (x : Fin 32)
  | vredRows (c : CoreId) (t : Thr) (vd : Fin 32) (ra : Reg) (rb : Reg) (op : Fin 8) (z : Bool)
  | vperm (c : CoreId) (t : Thr) (vd : Fin 32) (va : Fin 32) (vb : Fin 32)
  | vrot (c : CoreId) (t : Thr) (vd : Fin 32) (va : Fin 32) (imm : Fin 64)
  | vbcl (c : CoreId) (t : Thr) (vd : Fin 32) (va : Fin 32) (imm : Fin 64)
  | vsplat (c : CoreId) (t : Thr) (vd : Fin 32) (rb : Reg) (imm : Fin 64)
  | vzipl (c : CoreId) (t : Thr) (vd : Fin 32) (va : Fin 32) (vb : Fin 32)
  | vziph (c : CoreId) (t : Thr) (vd : Fin 32) (va : Fin 32) (vb : Fin 32)
  | vuzpe (c : CoreId) (t : Thr) (vd : Fin 32) (va : Fin 32) (vb : Fin 32)
  | vuzpo (c : CoreId) (t : Thr) (vd : Fin 32) (va : Fin 32) (vb : Fin 32)
  | vhaddF (c : CoreId) (t : Thr) (vd : Fin 32) (va : Fin 32) (rm : Fin 8)
  | vhmaxF (c : CoreId) (t : Thr) (vd : Fin 32) (va : Fin 32)
  | vhminF (c : CoreId) (t : Thr) (vd : Fin 32) (va : Fin 32)
  | vhaddI32 (c : CoreId) (t : Thr) (vd : Fin 32) (va : Fin 32)
  | vhmaxI32 (c : CoreId) (t : Thr) (vd : Fin 32) (va : Fin 32)
  | vhaddI64 (c : CoreId) (t : Thr) (vd : Fin 32) (va : Fin 32)
  | vrng (c : CoreId) (t : Thr) (vd : Fin 32) (uni : Bool)
  | asyncEventTaken (c : CoreId) (t : Thr)
  | watchdogExpiry (c : CoreId) (t : Thr)
  | timerCompareFire (c : CoreId) (t : Thr)
  | tmrWaitRead (c : CoreId) (t : Thr) (rd : Reg) (n : Thr)
  | xswiRaise (c : CoreId) (n : Thr)
  | xpendClear (c : CoreId) (n : Thr) (v : Word)
  | xstWrite (c : CoreId) (n : Thr) (who : Option Thr) (v : Word)
  | xwdtWrite (c : CoreId) (n : Thr) (who : Option Thr) (v : Word)
  | thrStart (c : CoreId) (t : Thr)
  | thrHalt (c : CoreId) (t : Thr)
  | thrPark (c : CoreId) (t : Thr)
  | thrUnpark (c : CoreId) (t : Thr)
  | corePark (c : CoreId)
  | coreUnpark (c : CoreId)
  | debugHalt (c : CoreId)
  | coreDispatchEnable (c : CoreId) (on : Bool)
  | coreLock (c : CoreId)
  | qownWrite (c : CoreId) (v : BitVec 16)
  | handlerDispatch (c : CoreId)
  | waitConditionMet (c : CoreId) (t : Thr)
  | engineCommandStart (c : CoreId) (k : Fin 4)
  | engineCommandComplete (c : CoreId) (k : Fin 4)
  | coreReset (c : CoreId)
  | mxeRetry (c : CoreId)
  | mxeDrop (c : CoreId)
  | mxePush (c : CoreId)
  | mxeTdataAccess (c : CoreId) (w : Option Word)
  | mxeTagWrite (c : CoreId) (k : Fin 3) (v : Word)
  | vxeRetry (c : CoreId)
  | vxeDrop (c : CoreId)
  | vxePush (c : CoreId)
  | vxeDefault (c : CoreId)
  | vxeVdataAccess (c : CoreId) (w : Option Word)
  | ringEnable (c : CoreId) (n : Fin 16)
  | ringDisable (c : CoreId) (n : Fin 16)
  | ringStart (c : CoreId) (n : Fin 16)
  | ringStopComplete (c : CoreId) (n : Fin 16)
  | ringAdv (c : CoreId) (n : Fin 16) (h : BitVec 16) (t : BitVec 16)
  | messageArrival (c : CoreId)
  | ringAppend (c : CoreId)
  | messageInject (c : CoreId)
  | dmaEnable (c : CoreId) (ch : Fin 2)
  | dmaDisable (c : CoreId) (ch : Fin 2)
  | dmaStart (c : CoreId) (ch : Fin 2)
  | dmaStopComplete (c : CoreId) (ch : Fin 2)
  | dmaBurstStart (c : CoreId) (ch : Fin 2)
  | dmaRequestPulse (c : CoreId) (ch : Fin 2)
  | dmaTransferComplete (c : CoreId) (ch : Fin 2)
  | dmaStatusWritten (c : CoreId) (ch : Fin 2)
  | dmaResume (c : CoreId) (ch : Fin 2)
  | dmaDrop (c : CoreId) (ch : Fin 2)
  | dmaPush (c : CoreId) (ch : Fin 2)
  | writeResponseArrival (c : CoreId)
  | farLoadResponse (c : CoreId) (t : Thr)
  | readDataArrival (c : CoreId)
  | counterIncrementArrival (c : CoreId)
  | counterMarkBroken (c : CoreId)
  | scClear (c : CoreId) (m : BitVec 48)
  | bgenClear (c : CoreId) (m : BitVec 8)
  | barrierDieArrived (n : Fin 8)
  | barrierUnitArrival (k : Fin 8) (x : RxUnit)
  | blxWrite (n : Fin 8) (v : Word)
  | blxBrkClear (n : Fin 8)
  | openRequestArrival (c : CoreId)
  | grantArrival (c : CoreId)
  | refusalArrival (c : CoreId)
  | channelCreditArrival (c : CoreId)
  | closeRequestArrival (c : CoreId)
  | closeNoticeArrival (c : CoreId)
  | abandonNoticeArrival (c : CoreId)
  | chiEnable (c : CoreId) (n : Fin 64)
  | chiDisable (c : CoreId) (n : Fin 64)
  | choEnable (c : CoreId) (n : Fin 64)
  | choDisable (c : CoreId) (n : Fin 64)
  | flitArrival (n : Node) (p : Fin 5) (x : FlitEcc)
  | schedFwd (n : Node) (p : Fin 5)
  | schedRed (n : Node) (p : Fin 5)
  | ingressItem (c : CoreId)
  | routerEnable (n : Node)
  | routerDisable (n : Node)
  | routerStart (n : Node)
  | routerStopComplete (n : Node)
  | routeEntryWrite (n : Node) (off : BitVec 14) (v : Word)
  | routerStallWatchdog (n : Node) (p : Fin 5)
  | svcPacketArrival (i : Nat)
  | svcAckArrival (i : Nat)
  | svcResendTimeout (i : Nat)
  | halfOffRequest (east : Bool)
  | halfOffDrainEnd
  | halfOnRequest (east : Bool)
  | halfPowerGood (east : Bool)
  | hostWindowFlushRead
  | hostWindowReadCompletion (tag : Nat) (data : List Byte) (status : Nat) (ep : Bool)
  | doorbellWrite (n : CoreId) (v : Word)
  | doorbellDelivery
  | hbmAccept (h : Fin 6) (j : Fin 16) (mesh : Bool) (x : Ecc)
  | refreshWindow (h : Fin 6)
  | bankRefresh (h : Fin 6) (pc : Fin 32)
  | patrolScrubRead (h : Fin 6) (x : Ecc)
  | patrolOverdue (h : Fin 6)
  | softRepair (h : Fin 6) (pc : Fin 32) (row : Nat) (x : RepairTry)
  | doubledRefreshBegin (h : Fin 6) (temp : BitVec 8)
  | doubledRefreshEnd (h : Fin 6) (temp : BitVec 8)
  | regionEnable (n : Fin 16)
  | regionDisable (n : Fin 16)
  | regionStartComplete (n : Fin 16)
  | regionStopComplete (n : Fin 16)
  | stackEnable (h : Fin 6)
  | stackDisable (h : Fin 6)
  | stackStartComplete (h : Fin 6) (ok : Bool)
  | stackStopComplete (h : Fin 6)
  | cellSend (k : Fin 8)
  | cellReceive (k : Fin 8) (x : RxCell) (words : List (List Nat))
  | replayUnitArrival (k : Fin 8) (x : RxUnit)
  | replayTimeout (k : Fin 8)
  | lcreditArrival (k : Fin 8) (x : RxUnit)
  | lcreditSend (k : Fin 8)
  | urgentUnitSend (k : Fin 8) (onWire : Bool)
  | ccreditArrival (k : Fin 8) (x : RxUnit)
  | chipdownArrival (k : Fin 8) (x : RxUnit)
  | laneSpareDetect (k : Fin 8) (lane : Fin 9) (x : LaneFault)
  | laneswapArrival (k : Fin 8) (x : RxUnit)
  | laneSwap (k : Fin 8)
  | portAckTimeout (k : Fin 8)
  | portEnable (k : Fin 8)
  | portDisable (k : Fin 8)
  | portTrainingComplete (k : Fin 8) (x : Training)
  | portStopComplete (k : Fin 8)
  | beaconEmit
  | beaconArrival (k : Fin 8) (u : Urgent) (crc : BitVec 16)
  | delayMeasure (k : Fin 8)
  | delayUnitArrival (k : Fin 8) (u : Urgent) (crc : BitVec 16) (wait : Nat)
  | holdoverEntry
  | holdoverTimeout
  | tbSyncEdge
  | tbSyncLost
  | tbSteparmWrite (v : Word)
  | tbRoleWrite (v : Word)
  | paceBoundary (c : CoreId)
  | paceModeSet (c : CoreId)
  | paceModeClear (c : CoreId)
  | cmdFetch (x : HCmd)
  | load (data : Option (List Byte)) (secs : List Sec)
  | start
  | stop
  | query
  | resetJobClear
  | resetWarm
  | map
  | fieldmap (data : Option (List Byte))
  | jobExitWrite (v : Word)
  | hotReset
  | hostRingEnable (r : Fin 3) (v : Word)
  | hostBar2Read (a : Nat) (len : Nat) (x : Ecc)
  | hostBar2Write (a : Nat) (data : List Byte) (ep : Bool) (x : Ecc)
  | hostBar4Read (a : Nat) (len : Nat)
  | hostBar4Write (a : Nat) (data : List Byte) (ep : Bool)
  | msixRaise (v : Word)
  | coldReset
  | coldResetRelease
  | bringupPhaseEnd (x : PhaseEnd)
  | brgAccept (v : Word)
  | clusterEnable (n : Fin 48)
  | clusterDisable (n : Fin 48)
  | clusterStartComplete (n : Fin 48)
  | clusterStopComplete (n : Fin 48)
  | clusterReset (n : Fin 48)
  | firmwarePushChunk (r : MgtReq)
  | tokenUnlock (r : MgtReq)
  | tokenReturn (r : MgtReq)
  | tokenScrap (r : MgtReq)
  | tokenSlotEnable (r : MgtReq)
  | tokenSlotRevoke (r : MgtReq)
  | tokenFieldmapEdit (r : MgtReq)
  | quote (r : MgtReq)
  | svnCommit (x : SvnBurn)
  | ext7
  | topologyWrite (r : MgtReq)
  | topologyRead (r : MgtReq)
  | fieldmapExport (r : MgtReq)
  | certRead (r : MgtReq)
  | debugPacket (r : MgtReq)
  | pldmFwUpdate (r : MgtReq)
  | pldmSensorRead (r : MgtReq)
  | mctpControl (r : MgtReq)
  | telemetryFrame (sensors : List Byte) (eyes : List Byte)
  | telEnable (v : Word)
  | governorWindowEnd (mw : Nat) (hot : Nat)
  | throttleAssert
  | throttleRelease
  | thermtrip
  | fatalError (key : Fin 3) (detail : BitVec 48)
  | streamFailNotify
  | recordForward (q : Fin 49)
  | logMirror
  | dripEnable
  | dripDisable
  | dripStart
  | dripStopComplete
  | engineSelftest (c : CoreId) (vxe : Bool) (bad : Bool) (spareBad : Bool) (word : BitVec 48)
  | spadScrub (c : CoreId) (line : Nat) (x : Ecc)
  | imemScrub (c : CoreId) (word : Nat) (ce : Bool) (ue : Bool)
  | scrubOverdue (c : CoreId) (imem : Bool) (pass : Nat)
  | linkMargin (k : Fin 8) (lane : Fin 9) (bad : Bool) (n : Nat)
  | calibration (sensor : Nat) (bad : Bool)
  | agingMeasure (east : Bool) (mv : Nat)
  | ccHeartbeatMiss (n : Fin 48) (pc : BitVec 48) (restored : Bool)
  | pwrgoodFall
  | registerWrite (a : Word) (v : Word)
  | configRequest (bme : Option Bool) (msix : Option Bool)
  | jtagInstruction (n : Nat)
  | startTick
  | jobClearComplete
  | engineParked (c : CoreId) (k : Fin 4) (row : Nat)
  deriving DecidableEq, Repr

end Sys2Proof
end

