-- ==== Sys2Proof/Decode.lean ====
section
/-! DEFINITION. Decoding: the table's bits, of which no row has any, and the 32-bit words of the instruction set (spec 03 R97, Tables 3-5 to 3-17; 07 Table 7-3; 08 Table 8-2). -/

namespace Sys2Proof

open Machine

/-- The command that a word spells by the table's bits (log entry 2). -/
def decodeTableWord (_nbits _w : Nat) : Option Instr := none

/-! ## Fields of an instruction word -/

/-- Bits [lo + n - 1 : lo]. -/
def wf (w lo n : Nat) : Nat := w / 2 ^ lo % 2 ^ n

/-- A register field, and the fields of other widths that select. -/
def wReg (w lo : Nat) : Fin 32 := Fin.ofNat 32 (wf w lo 5)
def wSel4 (w lo : Nat) : Fin 16 := Fin.ofNat 16 (wf w lo 4)
def wSel3 (w lo : Nat) : Fin 8 := Fin.ofNat 8 (wf w lo 3)
def wSel2 (w lo : Nat) : Fin 4 := Fin.ofNat 4 (wf w lo 2)
def wSel6 (w lo : Nat) : Fin 64 := Fin.ofNat 64 (wf w lo 6)
def wBit (w k : Nat) : Bool := decide (wf w k 1 = 1)
def wBits (w lo n : Nat) : BitVec n := BitVec.ofNat n (wf w lo n)

/-- An instruction when its unused and reserved fields are zero (R97). -/
def zeros (ok : Bool) (i : Instr) : Option Instr := if ok then some i else none

/-- Bits [lo + n - 1 : lo] are zero. -/
def wZero (w lo n : Nat) : Bool := decide (wf w lo n = 0)

/-! ## The groups of Table 3-6 -/

/-- Major 0x00 (Table 3-7). -/
def decodeInt (c : CoreId) (t : Thr) (w : Nat) : Option Instr :=
  let rd := wReg w 21
  let ra := wReg w 16
  let rb := wReg w 11
  match wf w 0 11 with
  | 0x00 => some (.add c t rd ra rb)
  | 0x01 => some (.sub c t rd ra rb)
  | 0x02 => some (.and_ c t rd ra rb)
  | 0x03 => some (.or_ c t rd ra rb)
  | 0x04 => some (.xor c t rd ra rb)
  | 0x05 => some (.shl c t rd ra rb)
  | 0x06 => some (.shr c t rd ra rb)
  | 0x07 => some (.sra c t rd ra rb)
  | 0x08 => some (.mul c t rd ra rb)
  | 0x09 => some (.mulh c t rd ra rb)
  | 0x0A => some (.mulhu c t rd ra rb)
  | 0x0B => some (.div c t rd ra rb)
  | 0x0C => some (.divu c t rd ra rb)
  | 0x0D => some (.rem c t rd ra rb)
  | 0x0E => some (.remu c t rd ra rb)
  | 0x0F => some (.min_ c t rd ra rb)
  | 0x10 => some (.max_ c t rd ra rb)
  | 0x11 => some (.minu c t rd ra rb)
  | 0x12 => some (.maxu c t rd ra rb)
  | 0x13 => some (.ceq c t rd ra rb)
  | 0x14 => some (.clt c t rd ra rb)
  | 0x15 => some (.cltu c t rd ra rb)
  | 0x16 => zeros (wZero w 11 5) (.clz c t rd ra)
  | 0x17 => zeros (wZero w 11 5) (.ctz c t rd ra)
  | 0x18 => zeros (wZero w 11 5) (.popc c t rd ra)
  | _ => none

/-- Major 0x05: the immediate's [7:6] selects and its [15:8] is zero (Table 3-6). -/
def decodeShift (c : CoreId) (t : Thr) (w : Nat) : Option Instr :=
  let rd := wReg w 21
  let ra := wReg w 16
  match wf w 6 10 with
  | 0 => some (.shli c t rd ra (wBits w 0 6))
  | 1 => some (.shri c t rd ra (wBits w 0 6))
  | 2 => some (.srai c t rd ra (wBits w 0 6))
  | _ => none

/-- Major 0x0A (Table 3-8): an operation that does not round has rm zero (Table 3-9). -/
def decodeFlt (c : CoreId) (t : Thr) (w : Nat) : Option Instr :=
  let rd := wReg w 21
  let ra := wReg w 16
  let rb := wReg w 11
  let rm := wBits w 8 3
  let z := wZero w 8 3
  let u := wZero w 11 5
  match wf w 0 8 with
  | 0x00 => some (.fadd c t rd ra rb rm)
  | 0x01 => some (.fsub c t rd ra rb rm)
  | 0x02 => some (.fmul c t rd ra rb rm)
  | 0x03 => some (.fdiv c t rd ra rb rm)
  | 0x04 => zeros u (.fsqrt c t rd ra rm)
  | 0x05 => zeros z (.frem c t rd ra rb)
  | 0x06 => zeros z (.fmin c t rd ra rb)
  | 0x07 => zeros z (.fmax c t rd ra rb)
  | 0x08 => zeros z (.fminn c t rd ra rb)
  | 0x09 => zeros z (.fmaxn c t rd ra rb)
  | 0x0A => zeros z (.feq c t rd ra rb)
  | 0x0B => zeros z (.flt c t rd ra rb)
  | 0x0C => zeros z (.fle c t rd ra rb)
  | 0x0D => zeros z (.fun c t rd ra rb)
  | 0x0E => zeros z (.fcpys c t rd ra rb)
  | 0x0F => zeros (z && u) (.fneg c t rd ra)
  | 0x10 => zeros (z && u) (.fabs c t rd ra)
  | 0x11 => some (.fscalb c t rd ra rb rm)
  | 0x12 => zeros (z && u) (.flogb c t rd ra)
  | 0x13 => zeros u (.frint c t rd ra rm)
  | 0x14 => zeros u (.frintx c t rd ra rm)
  | 0x15 => zeros (z && u) (.fnup c t rd ra)
  | 0x16 => zeros (z && u) (.fndn c t rd ra)
  | 0x17 => zeros (z && u) (.fclass c t rd ra)
  | _ => none

/-- Major 0x0B: fn 4 to 7 are illegal (R104). -/
def decodeFused (c : CoreId) (t : Thr) (w : Nat) : Option Instr :=
  let rd := wReg w 21
  let ra := wReg w 16
  let rb := wReg w 11
  let rc := wReg w 6
  let rm := wBits w 3 3
  match wf w 0 3 with
  | 0 => some (.fma c t rd ra rb rc rm)
  | 1 => some (.fms c t rd ra rb rc rm)
  | 2 => some (.fnma c t rd ra rb rc rm)
  | 3 => some (.fnms c t rd ra rb rc rm)
  | _ => none

/-- Major 0x0C (Table 3-10). -/
def decodeConv (c : CoreId) (t : Thr) (w : Nat) : Option Instr :=
  let rd := wReg w 21
  let ra := wReg w 16
  let rm := wBits w 8 3
  let u := wZero w 11 5
  match wf w 0 8 with
  | 0x00 => zeros u (.fcvtI c t rd ra rm)
  | 0x01 => zeros u (.fcvtU c t rd ra rm)
  | 0x02 => zeros u (.icvtF c t rd ra rm)
  | 0x03 => zeros u (.ucvtF c t rd ra rm)
  | 0x04 => zeros u (.fcvtS c t rd ra rm)
  | 0x05 => zeros (wZero w 8 8) (.scvtF c t rd ra)
  | _ => none

/-- Major 0x1E (Table 3-13). -/
def decodeJump (c : CoreId) (t : Thr) (w : Nat) : Option Instr :=
  let rd := wReg w 21
  let ra := wReg w 16
  match wf w 13 3 with
  | 0 => zeros (wZero w 0 13) (.jalr c t rd ra)
  | 1 => zeros (wZero w 22 4) (.loop c t (wBit w 21) ra (wBits w 0 13))
  | 2 => zeros (wZero w 16 5) (.mft c t rd (wBits w 0 13))
  | 3 => zeros (wZero w 21 5) (.mtt c t ra (wBits w 0 13))
  | _ => none

/-- Major 0x1F (Table 3-14): ra and imm8 are zero wherever the table names no operand. -/
def decodeSystem (c : CoreId) (t : Thr) (w : Nat) : Option Instr :=
  match wf w 21 5 with
  | 0 => zeros (wZero w 8 13) (.sysc c t (wBits w 0 8))
  | 1 => zeros (wZero w 0 21) (.sysret c t)
  | 2 => zeros (wZero w 8 13) (.trap c t (wBits w 0 8))
  | 3 => zeros (wZero w 0 21) (.retx c t)
  | 4 => zeros (wZero w 0 21) (.retd c t)
  | 5 => zeros (wZero w 8 13) (.setm c t (wBits w 0 8))
  | 6 => zeros (wZero w 0 21) (.arm c t)
  | _ => none

/-- Majors 0x20 and 0x21: unless the table names rb, it is g0 (R123). -/
def decodeMove (c : CoreId) (t : Thr) (w : Nat) : Option Instr :=
  let rd := wReg w 21
  let ra := wReg w 16
  let u := wZero w 11 5
  match wf w 0 11 with
  | 0 => zeros u (.mov c t rd ra)
  | 1 => zeros u (.tagof c t rd ra)
  | 2 => zeros u (.asraw c t rd ra)
  | 3 => zeros u (.asint c t rd ra)
  | 4 => zeros u (.asflt c t rd ra)
  | _ => none

def decodePointer (c : CoreId) (t : Thr) (w : Nat) : Option Instr :=
  let rd := wReg w 21
  let ra := wReg w 16
  let u := wZero w 11 5
  match wf w 0 11 with
  | 0 => zeros u (.pbase c t rd ra)
  | 1 => zeros u (.plen c t rd ra)
  | 2 => zeros u (.poff c t rd ra)
  | 3 => zeros u (.pperm c t rd ra)
  | 4 => some (.psub c t rd ra (wReg w 11))
  | 5 => zeros u (.prdonly c t rd ra)
  | 6 => zeros u (.msgptr0 c t rd ra)
  | 7 => zeros u (.msgptr1 c t rd ra)
  | 8 => zeros u (.schip c t rd ra)
  | 9 => zeros u (.skind c t rd ra)
  | _ => none

/-- Majors 0x2E and 0x2F (Table 3-15, R117). -/
def decodeCreate (c : CoreId) (t : Thr) (w : Nat) : Option Instr :=
  let rd := wReg w 21
  let ra := wReg w 16
  let u := wZero w 11 5
  match wf w 0 11 with
  | 4 => zeros u (.mksptr c t rd ra)
  | 5 => zeros u (.mkhnd c t rd ra)
  | 6 => zeros u (.mkcode c t rd ra)
  | n => zeros (decide (n < 4)) (.mkptr c t rd ra (wReg w 11) (wBits w 0 2))

def decodeImem (c : CoreId) (t : Thr) (w : Nat) : Option Instr :=
  match wf w 0 11 with
  | 0 => zeros (wZero w 11 5) (.imld c t (wReg w 21) (wReg w 16))
  | 1 => zeros (wZero w 21 5) (.imst c t (wReg w 16) (wReg w 11))
  | _ => none

/-- Major 0x3E (Table 3-16): a field that the operation does not take is zero (R97). -/
def decodeCounter (c : CoreId) (t : Thr) (w : Nat) : Option Instr :=
  let q := wBits w 19 3
  let sc := wBits w 17 2
  let ra := wReg w 12
  let rb := wReg w 7
  let n := wBits w 0 7
  let zs := wZero w 17 2
  let za := wZero w 12 5
  let zb := wZero w 7 5
  let zn := wZero w 0 7
  match wf w 22 4 with
  | 0 => zeros (zs && za) (.scinc c t q rb n)
  | 1 => zeros za (.scincRel c t q sc rb n)
  | 2 => zeros (zs && zn) (.scincR c t q ra rb)
  | 3 => zeros zn (.scincRRel c t q sc ra rb)
  | 4 => zeros za (.waitGe c t q sc rb n)
  | 5 => zeros za (.waitBg c t q sc rb n)
  | 6 => zeros (za && zb && zn) (.rel c t q sc)
  | 7 => zeros (wZero w 19 3 && za && zb && zn) (.acq c t sc)
  | 8 => zeros (za && zb) (.barr c t q sc n)
  | 9 => zeros (wZero w 0 22) (.pace c t)
  | _ => none

/-- Major 0x3F (Table 3-17). -/
def decodeChannel (c : CoreId) (t : Thr) (w : Nat) : Option Instr :=
  let ra := wReg w 17
  let rb := wReg w 12
  match wf w 22 4 with
  | 0 => zeros (wZero w 0 7) (.send c t ra rb (wReg w 7))
  | 1 => zeros (wZero w 0 22) (.done c t)
  | 2 => zeros (wZero w 0 17) (.open_ c t ra)
  | 3 => zeros (wZero w 0 17) (.close c t ra)
  | 4 => zeros (wZero w 0 12) (.dmago c t ra rb)
  | 5 => zeros (wZero w 0 17) (.dmaabort c t ra)
  | _ => none

/-- Majors 0x30 to 0x37 (Table 7-3). -/
def decodeMxe (c : CoreId) (t : Thr) (w : Nat) : Option Instr :=
  match wf w 26 6 with
  | 0x30 => some (.tmma c t (wSel2 w 24) (wSel3 w 21) (wSel3 w 18) (wReg w 13) (wReg w 8) (wReg w 3) (wBit w 2) (wBit w 1) (wBit w 0))
  | 0x31 => some (.tload c t (wSel4 w 22) (wReg w 17) (wReg w 12) (wSel2 w 10) (wReg w 5) (wSel3 w 2) (wSel2 w 0))
  | 0x32 => zeros (wZero w 0 2) (.tstore c t (wSel4 w 22) (wReg w 17) (wReg w 12) (wSel3 w 9) (wReg w 2) (wBit w 8) (wBit w 7))
  | 0x33 => zeros (wZero w 0 12) (.tmov c t (wSel4 w 22) (wSel4 w 18) (wSel3 w 15) (wBit w 14) (wBit w 13) (wBit w 12))
  | 0x34 => zeros (wZero w 0 11) (.tmovv c t (wSel4 w 22) (wReg w 17) (wReg w 12) (wBit w 11))
  | 0x35 => zeros (wZero w 0 8) (.tinit c t (wSel4 w 22) (wReg w 17) (wSel6 w 11) (wSel3 w 8))
  | 0x36 =>
    let s := wf w 22 4
    if s < 8 then zeros (wZero w 0 22) (.trel c t (Fin.ofNat 8 s))
    else zeros (wZero w 0 22 && decide (s < 12)) (.arel c t (Fin.ofNat 4 (s - 8)))
  | _ => none

/-- Major 0x38 (Table 8-3): a unary operation has vb zero, and one that does not round has rm zero (R275). -/
def decodeV38 (c : CoreId) (t : Thr) (w : Nat) : Option Instr :=
  let vd := wReg w 21
  let va := wReg w 16
  let vb := wReg w 11
  let rm := wSel3 w 8
  let z := wZero w 8 3
  let u := wZero w 8 8
  match wf w 0 8 with
  | 0x00 => some (.vadd c t vd va vb rm)
  | 0x01 => some (.vsub c t vd va vb rm)
  | 0x02 => some (.vmul c t vd va vb rm)
  | 0x03 => some (.vdiv c t vd va vb rm)
  | 0x04 => zeros (wZero w 11 5) (.vsqrt c t vd va rm)
  | 0x05 => zeros z (.vmin c t vd va vb)
  | 0x06 => zeros z (.vmax c t vd va vb)
  | 0x07 => zeros z (.vminn c t vd va vb)
  | 0x08 => zeros z (.vmaxn c t vd va vb)
  | 0x09 => zeros z (.vceq c t vd va vb)
  | 0x0A => zeros z (.vclt c t vd va vb)
  | 0x0B => zeros z (.vcle c t vd va vb)
  | 0x0C => zeros u (.vneg c t vd va)
  | 0x0D => zeros u (.vabs c t vd va)
  | 0x0E => zeros z (.vcpys c t vd va vb)
  | 0x10 => zeros u (.vexp2 c t vd va)
  | 0x11 => zeros u (.vlog2 c t vd va)
  | 0x12 => zeros u (.vrcp c t vd va)
  | 0x13 => zeros u (.vrsq c t vd va)
  | _ => none

/-- Major 0x39 (Table 8-3). -/
def decodeV39 (c : CoreId) (t : Thr) (w : Nat) : Option Instr :=
  let vd := wReg w 21
  let va := wReg w 16
  let vb := wReg w 11
  let vc := wReg w 6
  let rm := wSel3 w 3
  match wf w 0 3 with
  | 0 => some (.vfma c t vd va vb vc rm)
  | 1 => some (.vfms c t vd va vb vc rm)
  | 2 => some (.vfnma c t vd va vb vc rm)
  | 3 => some (.vfnms c t vd va vb vc rm)
  | _ => none

/-- Major 0x3A (Table 8-5). -/
def decodeV3A (c : CoreId) (t : Thr) (w : Nat) : Option Instr :=
  let vd := wReg w 21
  let va := wReg w 16
  let vb := wReg w 11
  let k := wSel2 w 9
  match wf w 0 9 with
  | 0x00 => some (.viadd c t vd va vb k)
  | 0x01 => some (.visub c t vd va vb k)
  | 0x02 => some (.viadds c t vd va vb k)
  | 0x03 => some (.visubs c t vd va vb k)
  | 0x04 => some (.vimul c t vd va vb k)
  | 0x05 => some (.vimulh c t vd va vb k)
  | 0x06 => some (.vimin c t vd va vb k)
  | 0x07 => some (.vimax c t vd va vb k)
  | 0x08 => some (.viminu c t vd va vb k)
  | 0x09 => some (.vimaxu c t vd va vb k)
  | 0x0A => some (.vand c t vd va vb k)
  | 0x0B => some (.vor c t vd va vb k)
  | 0x0C => some (.vxor c t vd va vb k)
  | 0x0D => some (.vshl c t vd va vb k)
  | 0x0E => some (.vshr c t vd va vb k)
  | 0x0F => some (.vsra c t vd va vb k)
  | 0x10 => some (.viceq c t vd va vb k)
  | 0x11 => some (.viclt c t vd va vb k)
  | 0x12 => some (.vicltu c t vd va vb k)
  | 0x13 => some (.vbsl c t vd va vb k)
  | 0x14 => zeros (wZero w 11 5) (.viabs c t vd va k)
  | _ => none

/-- Major 0x3B (Table 8-6): rb, part, SR, OVN and rm are zero where the conversion takes none (R278). -/
def decodeV3B (c : CoreId) (t : Thr) (w : Nat) : Option Instr :=
  let vd := wReg w 21
  let va := wReg w 16
  let rb := wReg w 11
  let part := wSel2 w 5
  let rm := wSel3 w 0
  let zb := wZero w 11 5
  let zp := wZero w 5 2
  let zo := wZero w 3 2
  let zr := wZero w 0 3
  match wf w 7 4 with
  | 0 => zeros (zb && zr) (.vcvtDf16 c t vd va part (wBit w 4) (wBit w 3))
  | 1 => zeros (zb && zr) (.vcvtDf8 c t vd va part (wBit w 4) (wBit w 3))
  | 2 => zeros (zb && zo && zr) (.vcvtFDf16 c t vd va part)
  | 3 => zeros (zb && zo && zr) (.vcvtFDf8 c t vd va part)
  | 4 => zeros (zb && zp && zo) (.vcvtI32 c t vd va rm)
  | 5 => zeros (zb && zp && zo) (.vcvtFI32 c t vd va rm)
  | 6 => zeros (zb && zo && zr) (.vcvtI32I16 c t vd va part)
  | 7 => zeros (zb && zo && zr) (.vcvtI16 c t vd va part)
  | 8 => zeros (zb && zo && zr) (.vcvtI32Di8 c t vd va part)
  | 9 => zeros (zb && zo && zr) (.vcvtDi8 c t vd va part)
  | 10 => zeros (zp && zo && zr) (.vqnt32 c t vd va rb)
  | 11 => zeros (zo && zr) (.vqnt64 c t vd va rb part)
  | 12 => zeros (zp && zo) (.vdq32 c t vd va rb rm)
  | 13 => zeros zo (.vdq64 c t vd va rb part rm)
  | 14 => zeros (zb && zp && zo && zr) (.vgexp c t vd va)
  | _ => none

/-- Major 0x3C (Table 8-8). -/
def decodeV3C (c : CoreId) (t : Thr) (w : Nat) : Option Instr :=
  let vd := wReg w 21
  let ra := wReg w 16
  let rb := wReg w 11
  match wf w 8 3 with
  | 0 => zeros (wZero w 11 5 && wZero w 0 8) (.vld c t vd ra)
  | 1 => zeros (wZero w 0 8) (.vlds c t vd ra rb)
  | 2 => zeros (wZero w 11 5 && wZero w 5 3) (.vst c t vd ra (wReg w 0))
  | 3 => zeros (wZero w 0 4) (.vredRows c t vd ra rb (wSel3 w 5) (wBit w 4))
  | _ => none

/-- Major 0x3D (Table 8-7). -/
def decodeV3D (c : CoreId) (t : Thr) (w : Nat) : Option Instr :=
  let vd := wReg w 21
  let va := wReg w 16
  let vb := wReg w 11
  let i := wSel6 w 0
  let zi := wZero w 0 6
  let zb := wZero w 11 5
  match wf w 6 5 with
  | 0 => zeros zi (.vperm c t vd va vb)
  | 1 => zeros zb (.vrot c t vd va i)
  | 2 => zeros (zb && wZero w 5 1) (.vbcl c t vd va i)
  | 3 => zeros (wZero w 16 5 && wZero w 2 4) (.vsplat c t vd vb i)
  | 4 => zeros zi (.vzipl c t vd va vb)
  | 5 => zeros zi (.vziph c t vd va vb)
  | 6 => zeros zi (.vuzpe c t vd va vb)
  | 7 => zeros zi (.vuzpo c t vd va vb)
  | 8 => zeros (zb && wZero w 3 3) (.vhaddF c t vd va (wSel3 w 0))
  | 9 => zeros (zb && zi) (.vhmaxF c t vd va)
  | 10 => zeros (zb && zi) (.vhminF c t vd va)
  | 11 => zeros (zb && zi) (.vhaddI32 c t vd va)
  | 12 => zeros (zb && zi) (.vhmaxI32 c t vd va)
  | 13 => zeros (zb && zi) (.vhaddI64 c t vd va)
  | 14 => zeros (wZero w 16 5 && zb && wZero w 1 5) (.vrng c t vd (wBit w 0))
  | _ => none

/-- The instruction that a 32-bit word spells for thread t of core c (Table 3-6); none where its major, its function code or a field that must be zero makes the word illegal (R97). A field value that the instruction's own rule makes illegal is decoded, and its meaning raises the fault. -/
def decodeWord (c : CoreId) (t : Thr) (x : BitVec 32) : Option Instr :=
  let w := x.toNat
  let rd := wReg w 21
  let ra := wReg w 16
  let imm := wBits w 0 16
  match wf w 26 6 with
  | 0x00 => decodeInt c t w
  | 0x01 => some (.addi c t rd ra imm)
  | 0x02 => some (.andi c t rd ra imm)
  | 0x03 => some (.ori c t rd ra imm)
  | 0x04 => some (.xori c t rd ra imm)
  | 0x05 => decodeShift c t w
  | 0x06 => some (.clti c t rd ra imm)
  | 0x07 => some (.cltui c t rd ra imm)
  | 0x08 => some (.movi c t rd (wBits w 0 21))
  | 0x09 => zeros (wZero w 16 3) (.movk c t rd (wSel2 w 19) imm)
  | 0x0A => decodeFlt c t w
  | 0x0B => decodeFused c t w
  | 0x0C => decodeConv c t w
  | 0x10 => some (.ld c t rd ra imm)
  | 0x11 => some (.ldI c t rd ra imm)
  | 0x12 => some (.ldF c t rd ra imm)
  | 0x13 => if wBit w 15 then some (.ldH c t rd ra (wBits w 0 15)) else some (.ldP c t rd ra (wBits w 0 15))
  | 0x14 => some (.lds c t rd ra (wBits w 14 2) (wBit w 13) (wBits w 0 13))
  | 0x15 => some (.st c t rd ra imm)
  | 0x16 => zeros (wZero w 13 1) (.sts c t rd ra (wBits w 14 2) (wBits w 0 13))
  | 0x17 => zeros (wZero w 0 11) (.bmov c t rd ra (wReg w 11))
  | 0x18 => some (.in_ c t rd ra imm)
  | 0x19 => some (.out c t rd ra imm)
  | 0x1C => some (.bcc c t rd (wBits w 18 3) (wBits w 0 18))
  | 0x1D => some (.jal c t rd (wBits w 0 21))
  | 0x1E => decodeJump c t w
  | 0x1F => decodeSystem c t w
  | 0x20 => decodeMove c t w
  | 0x21 => decodePointer c t w
  | 0x24 => some (.ldS c t rd ra (wBits w 14 2) (wBits w 12 2) (wBits w 0 12))
  | 0x25 => some (.stS c t rd ra (wBits w 14 2) (wBits w 12 2) (wBits w 0 12))
  | 0x2E => decodeCreate c t w
  | 0x2F => decodeImem c t w
  | 0x38 => decodeV38 c t w
  | 0x39 => decodeV39 c t w
  | 0x3A => decodeV3A c t w
  | 0x3B => decodeV3B c t w
  | 0x3C => decodeV3C c t w
  | 0x3D => decodeV3D c t w
  | 0x3E => decodeCounter c t w
  | 0x3F => decodeChannel c t w
  | _ => decodeMxe c t w

/-- A word that spells an instruction (R97). -/
def legalWord (x : BitVec 32) : Bool := (decodeWord 0 0 x).isSome

end Sys2Proof
end

