-- ==== Sys2Proof/Machine/Ops.lean ====
section
/-! DEFINITION. The shared operations of a core: registers, the range tracker, taking an entry and returning from it, core reset, and the issue and completion of one instruction. -/

namespace Sys2Proof.Machine

/-! ## What a core sees of its chip -/

/-- What a core reads of the chip around it while it acts. -/
structure Env where
  /-- the time base (R8) -/
  tb      : Nat := 0
  /-- CHIP.ID -/
  chip    : Nat := 0
  /-- the core's logical core ID -/
  lcid    : Nat := 0
  /-- the logical type is V-core -/
  vcore   : Bool := false
  /-- a spare stands in (R39, R40) -/
  standin : Bool := false
  cluster : Nat := 0
  row     : Nat := 0
  pcol    : Nat := 0
  /-- BLX.n.LOCAL and BLX.n.BRK of the eight lines -/
  blxLocal : BitVec 8 := 0
  blxBrk   : BitVec 8 := 0
  /-- streams that the core's router takes from L-in (R303) -/
  injects : List Nat := []
  deriving DecidableEq, Repr

/-- CORE.CAP.SPAD_KIB in bytes (Table 1-2, R40). -/
def Env.spadBytes (e : Env) : Nat := if e.vcore then 262144 else 393216

/-- Enabled thread contexts (CORE.CAP.NTHR). -/
def Env.nthr (e : Env) : Nat := if e.vcore then 8 else 4

/-- VXE pipes and scalar issue slots (Table 1-2, R40). -/
def Env.pipes (e : Env) : Nat := if e.vcore && !e.standin then 2 else 1

/-- The PUNIT field of a record for this core (Table 22-6). -/
def Env.punit (e : Env) (t : Nat) : Nat := e.cluster * 1024 + e.row * 128 + e.pcol * 8 + t % 8

/-- A record whose source is this core (Table 22-6). -/
def Env.errRec (e : Env) (cls sev key detail t : Nat) : Emit :=
  .record { cls := cls, sev := sev, ukind := 0, lunit := e.lcid, punit := e.punit t, key := key, detail := detail }

/-! ## Registers -/

/-- Reading a general register; g0 reads as INT 0 (R94). -/
def Thread.reg (th : Thread) (r : Nat) : TWord := if r = 0 then tint 0 else mget TWord.empty th.regs r

/-- Writing a general register; a write to g0 is discarded (R94). -/
def Thread.setReg (th : Thread) (r : Nat) (w : TWord) : Thread :=
  if r = 0 then th else { th with regs := mset th.regs r w }

/-- Thread t of a core. -/
def Core.thread (c : Core) (t : Nat) : Thread := mget {} c.thr t

/-- Replacing thread t. -/
def Core.setThread (c : Core) (t : Nat) (th : Thread) : Core := { c with thr := mset c.thr t th }

/-- Changing thread t. -/
def Core.updThread (c : Core) (t : Nat) (f : Thread → Thread) : Core := c.setThread t (f (c.thread t))

/-- Writing a general register of thread t. -/
def Core.setReg (c : Core) (t r : Nat) (w : TWord) : Core := c.updThread t fun th => th.setReg r w

/-- CHO.n, CHI.n, RING.n and SC.n of a core. -/
def Core.choAt (c : Core) (n : Nat) : Cho := mget {} c.cho n
def Core.chiAt (c : Core) (n : Nat) : Chi := mget {} c.chi n
def Core.ringAt (c : Core) (n : Nat) : Ring := mget {} c.rings n
def Core.scAt (c : Core) (n : Nat) : Word := mget 0 c.sc n
def Core.bgenAt (c : Core) (n : Nat) : Word := mget 0 c.bgen n

def Core.setCho (c : Core) (n : Nat) (x : Cho) : Core := { c with cho := mset c.cho n x }
def Core.setChi (c : Core) (n : Nat) (x : Chi) : Core := { c with chi := mset c.chi n x }
def Core.setRing (c : Core) (n : Nat) (x : Ring) : Core := { c with rings := mset c.rings n x }
def Core.setSc (c : Core) (n : Nat) (x : Word) : Core := { c with sc := mset c.sc n x }
def Core.setBgen (c : Core) (n : Nat) (x : Word) : Core := { c with bgen := mset c.bgen n x }

/-- DMA.n of a core. -/
def Core.dma (c : Core) (n : Nat) : Dma := if n = 0 then c.dma0 else c.dma1
def Core.setDma (c : Core) (n : Nat) (d : Dma) : Core := if n = 0 then { c with dma0 := d } else { c with dma1 := d }

/-- Queue k of a core: 0 MXE.Q, 1 VXE.Q, 2 DMA.0.Q, 3 DMA.1.Q (Table 4-1, queue ownership). -/
def Core.eng (c : Core) (k : Nat) : Eng :=
  if k = 0 then c.mxe.eng else if k = 1 then c.vxe.eng else if k = 2 then c.dma0.eng else c.dma1.eng
def Core.setEng (c : Core) (k : Nat) (e : Eng) : Core :=
  if k = 0 then { c with mxe := { c.mxe with eng := e } }
  else if k = 1 then { c with vxe := { c.vxe with eng := e } }
  else if k = 2 then { c with dma0 := { c.dma0 with eng := e } }
  else { c with dma1 := { c.dma1 with eng := e } }

/-- The depth of queue k (Table 2-3). -/
def qDepth (k : Nat) : Nat := if k ≤ 1 then 32 else 16

/-- The owner of queue k: valid only when the thread context is enabled (R51, R75). -/
def Core.owner (c : Core) (e : Env) (k : Nat) : Option Nat :=
  let f := c.qown.toNat / 2 ^ (4 * (3 - k)) % 16
  let t := f % 8
  if 8 ≤ f ∧ t < e.nthr then some t else none

/-! ## The range tracker -/

/-- Two ranges share a byte; an empty range shares none. -/
def rangesMeet (a1 n1 a2 n2 : Nat) : Bool :=
  decide (0 < n1) && decide (0 < n2) && decide (a1 < a2 + n2) && decide (a2 < a1 + n1)

/-- An access conflicts with an entry (R65). -/
def TrkEnt.meets (x : TrkEnt) (loc : Bool) (first len : Nat) (wr : Bool) : Bool :=
  (x.loc == loc) && rangesMeet x.first x.len first len && (x.wr || wr)

/-- The accesses that issue order has put before a new one and that have not taken effect: the entries held, and the places of accesses that wait without an entry (R62, R69). -/
def Core.ahead (c : Core) : List TrkEnt := c.trk.ents ++ c.thr.filterMap fun p => p.2.place

/-- A new access that holds no entry conflicts with an earlier one (R65, R66). -/
def Core.conflict (c : Core) (loc : Bool) (first len : Nat) (wr : Bool) : Bool :=
  c.ahead.any fun x => x.meets loc first len wr

/-- An access whose place in issue order is n conflicts with an earlier one; it never waits for a later one (R66). -/
def Core.conflictAt (c : Core) (n : Nat) (loc : Bool) (first len : Nat) (wr : Bool) : Bool :=
  c.ahead.any fun x => decide (x.id < n) && x.meets loc first len wr

/-- The access of entry `i` conflicts with an access before place n. -/
def Core.entMeets (c : Core) (n i : Nat) : Bool :=
  match c.trk.ents.find? (fun x => x.id == i) with
  | none => false
  | some y => c.conflictAt n y.loc y.first y.len y.wr

/-- The access of entry `i` conflicts with an earlier entry still held (R66). -/
def Core.entConflict (c : Core) (i : Nat) : Bool := c.entMeets i i

/-- A command that holds the entries `is` conflicts with an earlier access; its own entries are none (R54, R66). -/
def Core.accConflict (c : Core) (is : List Nat) : Bool :=
  match is with
  | [] => false
  | i :: r => (i :: r).any (c.entMeets (r.foldl min i))

/-- Free tracker entries (R62). -/
def Core.trkFree (c : Core) : Nat := 32 - c.trk.ents.length

/-- Taking an entry; answers its number. -/
def Core.trkTake (c : Core) (loc : Bool) (first len : Nat) (wr : Bool) : Core × Nat :=
  let t := c.trk
  let ents := t.ents ++ [{ id := t.next, loc := loc, first := first, len := len, wr := wr, step := c.steps }]
  ({ c with trk := { t with ents := ents, next := t.next + 1, peak := max t.peak ents.length } }, t.next)

/-- Releasing an entry (R67). -/
def Core.trkDrop (c : Core) (i : Nat) : Core :=
  { c with trk := { c.trk with ents := c.trk.ents.filter fun x => x.id != i } }

/-- Releasing several entries. -/
def Core.trkDropAll (c : Core) (is : List Nat) : Core := is.foldl Core.trkDrop c

/-- Narrowing an entry to the bytes that remain (R67, R110). -/
def Core.trkNarrow (c : Core) (i first len : Nat) : Core :=
  { c with trk := { c.trk with ents := c.trk.ents.map fun x => if x.id = i then { x with first := first, len := len } else x } }

/-- An access begins to wait on a conflict: TRK.CONFL counts it once (Table 2-9). -/
def Core.countConfl (c : Core) : Core := { c with trk := { c.trk with confl := c.trk.confl + 1 } }

/-- An access of thread t that holds no entry begins to wait, and keeps its place in issue order (R66, R69). -/
def Core.takePlace (c : Core) (t : Nat) (loc : Bool) (first len : Nat) (wr : Bool) : Core :=
  { c with trk := { c.trk with next := c.trk.next + 1 } }.updThread t fun th =>
    { th with place := some { id := c.trk.next, loc := loc, first := first, len := len, wr := wr, step := c.steps } }

/-- An access of thread t without an entry is held: by any earlier access when it issues, and by what came before its place when it waits already. -/
def Core.placeHeld (c : Core) (t : Nat) (loc : Bool) (first len : Nat) (wr : Bool) : Bool :=
  let th := c.thread t
  match (if th.st = .wait then th.place else none) with
  | some y => c.conflictAt y.id loc first len wr
  | none => c.conflict loc first len wr

/-- Its wait begins: TRK.CONFL counts it once, and it takes its place. -/
def Core.placeWait (c : Core) (t : Nat) (loc : Bool) (first len : Nat) (wr : Bool) : Core :=
  if (c.thread t).st = .wait ∧ (c.thread t).place.isSome then c else c.countConfl.takePlace t loc first len wr

/-! ## System addresses (Table 15-7, R64) -/

def saChip (a : Word) : Nat := fld a 52 12
def saKind (a : Word) : Nat := fld a 48 4
def saOff  (a : Word) : Nat := fld a 0 48
def saLcid (a : Word) : Nat := fld a 24 12

/-- A system address from its fields. -/
def mkSa (chip kind off : Nat) : Word := pack [(chip, 52, 12), (kind, 48, 4), (off, 0, 48)]

/-- A kind-1 address of a byte of a core. -/
def saCore (chip kind lcid off : Nat) : Word := pack [(chip, 52, 12), (kind, 48, 4), (lcid, 24, 12), (off, 0, 24)]

/-- Step 1 of the normal form: chip ID 0xFFF takes this chip's ID (R64). -/
def Env.normChip (e : Env) (a : Word) : Word :=
  if saChip a = 4095 then mkSa e.chip (saKind a) (saOff a) else a

/-- Step 2 of the normal form: a kind-1 address of the issuing core is a local scratchpad address (R64). -/
def Env.localOff (e : Env) (a : Word) : Option Nat :=
  let n := e.normChip a
  if saChip n = e.chip ∧ saKind n = 1 ∧ fld n 36 12 = 0 ∧ saLcid n = e.lcid then some (fld n 0 24) else none

/-- The narrowest scope that holds a target, seen from the issuing core: 0 CORE, 1 CLUSTER, 2 DIE, 3 SYSTEM (R10, Table 0-2). -/
def Env.scopeOf (e : Env) (a : Word) : Nat :=
  let n := e.normChip a
  if saKind n = 3 then 3
  else if saChip n ≠ e.chip then 3
  else if saKind n = 1 ∨ saKind n = 2 then
    if saLcid n = e.lcid then 0
    else
      let l := saLcid n
      let cl := (l / 64 / 8) * 8 + l % 64 / 8
      let me := (e.lcid / 64 / 8) * 8 + e.lcid % 64 / 8
      if cl = me then 1 else 2
  else 2

/-- An SC register named by a kind-2 address, with the reserved fields zero (R324). -/
def saCounter (a : Word) : Option Nat :=
  if saKind a = 2 ∧ fld a 36 12 = 0 ∧ fld a 16 8 = 0 ∧ 0x800 ≤ fld a 0 16 ∧ fld a 0 16 < 0x980 ∧ fld a 0 3 = 0
    ∧ saLcid a < 3072
  then some ((fld a 0 16 - 0x800) / 8) else none

/-! ## Entries (R134 to R146) -/

/-- The level of a fault code (Table 4-1). -/
def faultLevel (code : Nat) : BitVec 3 :=
  if code = 0x23 then 7
  else if code ≤ 0x14 then 6
  else if code ≤ 0x1D then 5
  else if code ≤ 0x21 then 4
  else 3

/-- The word that an entry writes to XCAUSE: DF and DCODE cleared (R135, R144). -/
def causeWord (ev : Ev) : Word :=
  pack [(b2n ev.imp, 62, 1), (b2n ev.async, 61, 1), (b2n (ev.kind == .sysc || ev.kind == .trap), 60, 1),
    (ev.sub, 16, 8), (ev.code, 0, 8)]

/-- XCAUSE after a double fault: DF and DCODE set, CODE, SUB, IMP and TRP kept (R145). -/
def dfCause (old : Word) (code : Nat) : Word :=
  pack [(1, 63, 1), (fld old 62 1, 62, 1), (fld old 61 1, 61, 1), (fld old 60 1, 60, 1), (code, 48, 8),
    (fld old 16 8, 16, 8), (fld old 0 8, 0, 8)]

/-- The level of an event (R131, R133): a fault's from Table 4-1, an interrupt's from its vector code (Table 4-4). -/
def Ev.level (ev : Ev) : BitVec 3 :=
  match ev.kind with
  | .fault => faultLevel ev.code
  | .intr => BitVec.ofNat 3 (ev.code - 0x30)
  | _ => 0

/-- The mask that an entry sets (R132). -/
def newMask (c : Core) (th : Thread) (ev : Ev) : BitVec 3 :=
  match ev.kind with
  | .fault | .intr => ev.level
  | .sysc => if c.vecmode then th.ml else mget 0 c.entMl ev.code
  | .trap => th.ml

/-- Where an entry goes (R135, R142, R143). -/
def entryPc (c : Core) (ev : Ev) : BitVec 16 :=
  if c.vecmode then BitVec.ofNat 16 (8 * ev.code)
  else match ev.kind with
    | .sysc => mget 0 c.entAddr ev.code
    | .fault => c.exv
    | _ => c.irqv

/-- What every entry leaves of the interrupted instruction: nothing waits and nothing is half done. -/
def Thread.settled (th : Thread) : Thread :=
  { th with st := .run, wcause := .none, waitOp := none, slot := none, shadow := false, bmov := none, place := none }

/-- The normal entry (R135). -/
def normalEntry (c : Core) (th : Thread) (ev : Ev) (ret : BitVec 16) (inSlot : Bool) : Thread :=
  { th.settled with
    xra := ret, pmode := th.smode, pml := th.ml, ds := inSlot, ml := newMask c th ev, arm := false
    xcause := causeWord ev, xaddr := ev.addr, smode := true, pc := entryPc c ev }

/-- The double fault (R145). -/
def doubleFault (c : Core) (th : Thread) (ev : Ev) (ret : BitVec 16) (inSlot : Bool) : Thread :=
  { th.settled with
    dra := ret, dpmode := th.smode, dpml := th.ml, dds := inSlot, dparm := th.arm
    ml := 7, arm := false, dfh := true, xcause := dfCause th.xcause ev.code, xaddr := ev.addr
    smode := true, pc := if c.vecmode then BitVec.ofNat 16 (8 * 0x3F) else c.dfv }

/-- An event escalates to the double fault (R131, R135, R145); an asynchronous fault escalates only for want of ARM (R683). -/
def escalates (th : Thread) (ev : Ev) : Bool :=
  ev.kind != .intr && (!th.arm || (ev.kind == .fault && !ev.async && !ev.imp && decide (ev.level ≤ th.ml)))

/-! ## Core reset (R77, R96, R371 to R373, R649) -/

/-- The close notices of endpoint i when its core is reset: to the peer of an OPEN CHI (R372). -/
def chiResetEmits (c : Core) (i : Nat) : List Emit :=
  let x := c.chiAt i
  match x.fsm.st, x.peer with
  | .on, some p => [.svc (saCore p.chip 1 p.lcid 0) 0 (.closeNotice p.cho x.epoch.toNat false)]
  | _, _ => []

/-- The abandon notice of outbound endpoint i when its core is reset (R373). -/
def choResetEmits (e : Env) (c : Core) (i : Nat) : List Emit :=
  let x := c.choAt i
  match x.fsm.st with
  | .on | .starting => [.svc (saCore x.dchip 1 x.dlcid 0) 0 (.abandon x.dchi e.chip e.lcid i)]
  | _ => []

/-- The lines on which a reset participant breaks the line (R346 cause 1): those of BAR.PART, where the die takes part itself (LOCAL = 1, R344). -/
def partEmits (e : Env) (c : Core) : List Emit :=
  (List.range 8).filterMap fun n => if c.part.getLsbD n && e.blxLocal.getLsbD n then some (.lineBroken n) else none

/-- Core reset: every register, queue, tracker entry and thread cleared, the memories wiped, each CHI's EPOCH raised by one and each CHO's CCAUSE 5 (R77, R371, Table 11-3). The model's own transaction and issue numbers go on. -/
def coreReset (e : Env) (c : Core) : Core × List Emit :=
  ({ held := c.held
     xid := c.xid
     seq := c.seq
     cho := (List.range 64).map fun i => (i, { ccause := 5 })
     chi := (List.range 64).map fun i => (i, { epoch := (c.chiAt i).epoch + 1 }) },
   (List.range 64).flatMap (fun i => chiResetEmits c i) ++ (List.range 64).flatMap (fun i => choResetEmits e c i)
     ++ partEmits e c)

/-- A HALT that was pending is taken at a boundary where an interrupt could be taken (R44). -/
def Thread.boundary (th : Thread) : Thread :=
  if th.haltPend && th.slot.isNone && !th.shadow && th.st == .run
  then { th with st := .halt, haltPend := false } else th

/-- Tracker entries that a thread's unfinished instruction holds: those of a BMOV, and that of a far access still waiting. -/
def Thread.heldEnts (th : Thread) : List Nat :=
  (match th.bmov with | some b => [b.rdEnt, b.wrEnt] | none => []) ++
    (match th.waitOp with | some (.far _ _ _ _ _ _ (some i)) => [i] | _ => [])

/-- Abandoning a thread's unfinished instruction: its tracker entries go and nothing of it takes effect (Table 4-5, R157). -/
def Core.abandon (c : Core) (t : Nat) : Core :=
  (c.trkDropAll (c.thread t).heldEnts).updThread t fun th => { th with wcause := .none, waitOp := none, bmov := none, place := none }

/-- Taking an entry: the third fault, the double fault or the normal entry (R135, R145, R146). -/
def takeEntry (e : Env) (c0 : Core) (t : Nat) (ev : Ev) (ret : BitVec 16) (inSlot : Bool) : Core × List Emit :=
  let c := c0.abandon t
  let th := c.thread t
  if th.dfh then
    let r := coreReset e c
    (r.1, e.errRec 0x03 2 ev.code t t :: r.2)
  else if escalates th ev then (c.setThread t (doubleFault c th ev ret inSlot).boundary, [])
  else (c.setThread t (normalEntry c th ev ret inSlot).boundary, [])

/-- RETX and SYSRET (R139). -/
def Thread.returnX (th : Thread) : Thread :=
  { th with smode := th.pmode, ml := th.pml, arm := true, dfh := false }

/-- RETD (R139). -/
def Thread.returnD (th : Thread) : Thread :=
  { th with smode := th.dpmode, ml := th.dpml, arm := th.dparm, dfh := false }

/-! ## Issue and completion of one instruction -/

/-- What issue must know of an instruction before it reads an operand (R98). -/
structure IssueInfo where
  /-- the general registers that it writes (R148) -/
  writes  : List Nat := []
  /-- illegal in a delay slot (R149) -/
  noSlot  : Bool := false
  /-- Bcc, JAL, JALR or LOOP: a loop violation at LE (R155) -/
  loopEnd : Bool := false
  /-- Bcc, JAL or JALR: has a delay slot -/
  branch  : Bool := false
  /-- allowed in S mode only (R128) -/
  priv    : Bool := false
  /-- a field makes it illegal (R97) -/
  illegal : Bool := false
  deriving DecidableEq, Repr

/-- How an instruction that has issued goes on. -/
inductive Ctl where
  /-- it completes and the next in sequence follows (R122) -/
  | seq
  /-- a branch: the target when it is taken, and the register that it reads (R118, R148) -/
  | branch (target : Option (BitVec 16)) (reads : Option Nat)
  /-- control goes to an address at once; `shadow` after a mode change (R151) -/
  | goto (pc : BitVec 16) (shadow : Bool)
  /-- a return: the loop test of R122 counts, and control goes to the saved address (R139; log entry 35) -/
  | ret (pc : BitVec 16)
  /-- the mode has changed and the next in sequence is the shadow (R151) -/
  | seqShadow
  /-- the thread waits at it -/
  | wait (cause : WCause) (op : WaitOp)
  /-- it completes and the thread becomes IDLE (R59) -/
  | idle
  /-- a BMOV has started: it stays the thread's instruction -/
  | hold
  /-- SYSC or TRAP -/
  | entry (ev : Ev)
  deriving DecidableEq, Repr

/-- The result of an instruction's own part: a fault, or the core after it, how the thread goes on, and what leaves the core. -/
abbrev Res := Except Ev (Core × Ctl × List Emit)

/-- An instruction's own part. -/
abbrev Body := Env → Core → Nat → Res

/-- The address after a: sequential execution past 0xFFFC continues at 0 (R79). -/
def pcNext (a : BitVec 16) : BitVec 16 := a + 4

/-- The loop test of R122 at one level. -/
def loopLevel1 (th : Thread) (a : BitVec 16) : Thread × Option (BitVec 16) :=
  if 0 < th.lc1.toInt ∧ a = th.le1 then
    let th' := { th with lc1 := th.lc1 - 1 }
    if 0 < th'.lc1.toInt then (th', some th.ls1) else (th', none)
  else (th, none)

/-- The same at level 0. -/
def loopLevel0 (th : Thread) (a : BitVec 16) : Thread × Option (BitVec 16) :=
  if 0 < th.lc0.toInt ∧ a = th.le0 then
    let th' := { th with lc0 := th.lc0 - 1 }
    if 0 < th'.lc0.toInt then (th', some th.ls0) else (th', none)
  else (th, none)

/-- The thread after the instruction at its pc completes and is not a taken branch (R122). -/
def Thread.loopNext (th : Thread) : Thread :=
  let a := th.pc
  match loopLevel1 th a with
  | (th1, some n) => { th1 with pc := n }
  | (th1, none) =>
    match loopLevel0 th1 a with
    | (th0, some n) => { th0 with pc := n }
    | (th0, none) => { th0 with pc := pcNext a }

/-- The next address in sequence: after a delay slot of a taken branch, the target (R118); else R122. -/
def Thread.advance (th : Thread) : Thread :=
  match th.slot with
  | some ⟨_, some tgt, _⟩ => { th with pc := tgt, slot := none, shadow := false }
  | _ => { th.loopNext with slot := none, shadow := false }

/-- The thread once an instruction has completed in RUN with nothing awaited. -/
def Thread.ran (th : Thread) : Thread := { th with st := .run, wcause := .none, waitOp := none, bmov := none, place := none }

/-- Counting an issued instruction (THR.n.ICOUNT). -/
def Thread.count (th : Thread) : Thread := { th with icount := th.icount + 1 }

/-- The counts of the loop test of R122 for an instruction that completes and chooses its next address itself. -/
def Thread.loopCount (th : Thread) : Thread := { th.loopNext with pc := th.pc }

/-- How the thread goes on after its instruction's own part. -/
def finish (e : Env) (c : Core) (t : Nat) (ctl : Ctl) : Core × List Emit :=
  let th := c.thread t
  match ctl with
  | .seq => (c.setThread t th.ran.advance.boundary, [])
  | .branch target reads =>
    (c.setThread t { th.ran with pc := pcNext th.pc, slot := some ⟨th.pc, target, reads⟩, shadow := false }, [])
  | .goto p sh => (c.setThread t ({ th.ran with pc := p, slot := none, shadow := sh }.boundary), [])
  | .ret p => (c.setThread t ({ th.ran.loopCount with pc := p, slot := none, shadow := true }.boundary), [])
  | .seqShadow => (c.setThread t { th.ran.advance with shadow := true }, [])
  | .wait cause op => (c.setThread t { th with st := .wait, wcause := cause, waitOp := some op }, [])
  | .idle =>
    let th' := th.ran.advance
    (c.setThread t (if th'.haltPend then { th' with st := .halt, haltPend := false } else { th' with st := .idle }), [])
  | .hold => (c.setThread t { th with st := .run, wcause := .none, waitOp := none }, [])
  | .entry ev => takeEntry e c t ev (pcNext th.pc) false

/-- The return address of a precise fault: the branch when it strikes in a delay slot (Table 4-3, R150). -/
def faultRet (th : Thread) : BitVec 16 :=
  match th.slot with
  | some sl => sl.branch
  | none => th.pc

/-- A precise fault at the thread's instruction. -/
def raise (e : Env) (c : Core) (t : Nat) (ev : Ev) : Core × List Emit :=
  let th := c.thread t
  takeEntry e c t ev (faultRet th) th.slot.isSome

/-- The instruction has issued, and did not merely begin to wait for a slot, the tracker or an entry (R53, R66, R68). -/
def ctlIssued : Ctl → Bool
  | .wait .queueFull _ | .wait .conflict _ | .wait .trkFull _ => false
  | _ => true

/-- Running an instruction's own part and going on; `again` when it was held in a wait whose issue has been counted already. -/
def runBody (e : Env) (c : Core) (t : Nat) (counted : Bool) (body : Body) : Core × List Emit :=
  match body e c t with
  | .error ev => raise e (if counted then c else c.updThread t Thread.count) t ev
  | .ok (c', ctl, em) =>
    let c'' := if counted || !ctlIssued ctl then c' else c'.updThread t Thread.count
    let r := finish e c'' t ctl
    (r.1, em ++ r.2)

/-- The loop level whose LE, with LC above zero, stands at an address: the inner level first (R155). -/
def loopAt (th : Thread) (a : BitVec 16) : Option Nat :=
  if 0 < th.lc1.toInt ∧ a = th.le1 then some 1
  else if 0 < th.lc0.toInt ∧ a = th.le0 then some 0
  else none

/-- The address as a word, for XADDR. -/
def pcWord (a : BitVec 16) : Word := BitVec.ofNat 64 a.toNat

/-- What a wipe leaves in an instruction word (R649). -/
def imemWiped : BitVec 32 := 0xFFFFFFFF

/-- The word that thread th fetches. -/
def Core.fetched (c : Core) (th : Thread) : BitVec 32 := mget imemWiped c.imem (th.pc.toNat / 4)

/-- The faults known before any operand is read, in the order of R98: the word in instruction memory must be a legal one (R97, log entry 12). -/
def precheck (c : Core) (th : Thread) (i : IssueInfo) : Option Ev :=
  let a := pcWord th.pc
  if bit c.nxmap (th.pc.toNat / 1024) then some { code := 0x12, addr := a }
  else if mget false c.imark (th.pc.toNat / 4) then some { code := 0x18, addr := a }
  else if i.illegal || (i.noSlot && th.slot.isSome) || !legalWord (c.fetched th) then some { code := 0x10, addr := a }
  else match (if i.loopEnd then loopAt th th.pc else none) with
    | some v => some { code := 0x14, sub := v, addr := a }
    | none =>
      match (if i.branch then loopAt th (pcNext th.pc) else none) with
      | some v => some { code := 0x14, sub := v, addr := a }
      | none =>
        match (match th.slot with | some ⟨_, _, some r⟩ => if r ≠ 0 ∧ r ∈ i.writes then some r else none | _ => none) with
        | some r => some { code := 0x13, sub := r, addr := a }
        | none => if i.priv && !th.smode then some { code := 0x11, addr := a } else none

/-- The thread may issue an instruction now: its core is out of core reset and it is in RUN with no BMOV under way. -/
def Core.canIssue (c : Core) (e : Env) (t : Nat) : Bool :=
  !c.held && decide (t < e.nthr) && (c.thread t).st == .run && (c.thread t).bmov.isNone

/-- An instruction whose issue is due: its checks, then its own part; the fetch of a marked word writes its record too (R98, R644). -/
def issueDue (e : Env) (c : Core) (t : Nat) (i : IssueInfo) (body : Body) : Core × List Emit :=
  match precheck c (c.thread t) i with
  | some ev =>
    let r := raise e (c.updThread t Thread.count) t ev
    (r.1, (if ev.code = 0x18 then [e.errRec 0x02 1 0 (c.thread t).pc.toNat t] else []) ++ r.2)
  | none => runBody e c t false body

/-- Issuing an instruction in thread t: without effect when the thread cannot issue (R43, Table 2-1). -/
def issue (e : Env) (c : Core) (t : Nat) (i : Thread → IssueInfo) (body : Body) : Core × List Emit :=
  if c.canIssue e t then issueDue e c t (i (c.thread t)) body else (c, [])

/-! ## Operand checks (R83 to R85, R98) -/

/-- A register operand that must be neither EMPTY nor POISON and carry one of some tags. -/
def needTag (w : TWord) (ok : List Tag) : Except Ev Word :=
  if w.tag ∈ ok then .ok w.val
  else if w.tag = .poison then .error { code := 0x18 }
  else .error { code := 0x15, sub := w.tag.toNat }

/-- An INT operand. -/
def needInt (w : TWord) : Except Ev Word := needTag w [.int]

/-- An FLT operand. -/
def needFlt (w : TWord) : Except Ev Word := needTag w [.flt]

/-- A memory word that must carry one of some tags, at its data address. -/
def needMem (w : TWord) (a : Nat) (ok : List Tag) : Except Ev TWord :=
  if w.tag ∈ ok then .ok w
  else if w.tag = .poison then .error { code := 0x18, addr := BitVec.ofNat 64 a }
  else .error { code := 0x15, sub := w.tag.toNat, addr := BitVec.ofNat 64 a }

def evTag (t : Tag) : Ev := { code := 0x15, sub := t.toNat }
def evBounds (a : Word) : Ev := { code := 0x16, addr := a }
def evAlign (a : Word) : Ev := { code := 0x17, addr := a }
def evPriv (a : Word) : Ev := { code := 0x11, addr := a }
def evFar (a : Word) : Ev := { code := 0x21, addr := a }
def evIllegal (th : Thread) : Ev := { code := 0x10, addr := pcWord th.pc }

/-- An instruction whose own part only writes register rd and completes. -/
def writeReg (rd : Nat) (f : Thread → Except Ev TWord) : Body := fun _ c t =>
  match f (c.thread t) with
  | .error ev => .error ev
  | .ok w => .ok (c.setReg t rd w, .seq, [])

end Sys2Proof.Machine
end

