-- ==== Sys2Proof/Machine/Operands.lean ====
section
/-! DEFINITION. Operand forms: PTR, SPTR, HND and CODE words, data-space addresses, wide-view addresses and far addresses (spec 03 R87 to R90, R101, R106, R113; 05 R198, R199; 07 R240). -/

namespace Sys2Proof.Machine

/-! ## Pointers (Table 3-3) -/

def ptrR (w : Word) : Bool := bit w 63
def ptrW (w : Word) : Bool := bit w 62
def ptrLen (w : Word) : Nat := fld w 42 20
def ptrBase (w : Word) : Nat := fld w 22 20
/-- OFF, signed. -/
def ptrOff (w : Word) : Int := sextNat (fld w 0 22) 22

/-- A PTR from its fields; OFF is cut to 22 bits. -/
def mkPtr (r w : Bool) (len base : Nat) (off : Int) : Word :=
  pack [(b2n r, 63, 1), (b2n w, 62, 1), (len, 42, 20), (base, 22, 20), ((off % 4194304).toNat, 0, 22)]

/-- The address that a PTR designates: BASE + OFF (R87). -/
def ptrAddr (w : Word) : Int := (ptrBase w : Int) + ptrOff w

/-- [a, a + n) lies in [BASE, BASE + LEN) (R87). -/
def ptrCovers (w : Word) (a : Int) (n : Nat) : Bool :=
  decide ((ptrBase w : Int) ≤ a) && decide (a + n ≤ (ptrBase w : Int) + ptrLen w)

/-- OFF moves by d; a result outside 22 bits is the bounds fault (R101). -/
def ptrAdd (w : Word) (d : Int) (x : Word) : Except Ev Word :=
  let o := ptrOff w + d
  if -2097152 ≤ o ∧ o ≤ 2097151 then .ok (mkPtr (ptrR w) (ptrW w) (ptrLen w) (ptrBase w) o)
  else .error (evBounds x)

/-- The offset of an SPTR moves by d; a result outside [0, 2^48) is the bounds fault (R101). -/
def sptrAdd (w : Word) (d : Int) (x : Word) : Except Ev Word :=
  let o := (saOff w : Int) + d
  if 0 ≤ o ∧ o < 281474976710656 then .ok (mkSa (saChip w) (saKind w) o.toNat) else .error (evBounds x)

/-- A pointer or integer plus an integer, with the tag it keeps (R101). -/
def addTagged (w : TWord) (d : Int) (x : Word) : Except Ev TWord :=
  match w.tag with
  | .ptr => (ptrAdd w.val d x).map fun v => ⟨v, .ptr⟩
  | .sptr => (sptrAdd w.val d x).map fun v => ⟨v, .sptr⟩
  | _ => .ok (tint (w.val + ofInt d))

/-! ## Handles (Table 3-4) -/

def hndKind (w : Word) : Nat := fld w 60 4
def hndIndex (w : Word) : Nat := fld w 32 8
def hndPos (w : Word) : Nat := fld w 16 16
def hndEpoch (w : Word) : Nat := fld w 0 16

/-- A handle from its fields. -/
def mkHnd (kind index pos epoch : Nat) : Word :=
  pack [(kind, 60, 4), (index, 32, 8), (pos, 16, 16), (epoch, 0, 16)]

/-- HK and INDEX lie in the ranges of Table 3-4 and the fields it calls zero are zero (R89). -/
def hndOk (w : Word) : Bool :=
  let k := hndKind w
  let i := hndIndex w
  let range := (k == 1 || k == 2) && decide (i < 64) || k == 3 && decide (i < 16) || k == 4 && decide (i < 48)
    || k == 5 && decide (i < 2) || k == 6 && decide (i < 16)
  range && decide (fld w 40 20 = 0) && (k == 6 || decide (fld w 0 32 = 0))

/-- An HND operand of one of some kinds; another kind is the tag fault with SUB 5 (R126). -/
def needHnd (w : TWord) (kinds : List Nat) : Except Ev Word :=
  match needTag w [.hnd] with
  | .error e => .error e
  | .ok v => if hndKind v ∈ kinds then .ok v else .error (evTag .hnd)

/-! ## Data-space addresses (R106) -/

/-- A negative or large integer as XADDR shows it, in two's complement. -/
def iWord (i : Int) : Word := ofInt i

/-- `data_address` of R106: alignment, then permission, then bounds. -/
def dataAddress (p : TWord) (disp : Int) (size : Nat) (needW : Bool) : Except Ev Nat :=
  match needTag p [.ptr] with
  | .error e => .error e
  | .ok w =>
    let ea := ptrAddr w + disp
    if ea % size ≠ 0 then .error (evAlign (iWord ea))
    else if (if needW then !ptrW w else !ptrR w) then .error (evBounds (iWord ea))
    else if !ptrCovers w ea size then .error (evBounds (iWord ea))
    else .ok ea.toNat

/-- A range of n bytes at the address of a PTR, with a permission (R110 `check_range`, R126, R240). An empty range is in bounds only at an address in [BASE, BASE + LEN]: R87 speaks of the bytes accessed and R126 of none where SEND's length is 0, and this is the model's choice (log entry 109). -/
def ptrRange (w : Word) (n : Nat) (needW : Bool) : Bool :=
  (if needW then ptrW w else ptrR w) && ptrCovers w (ptrAddr w) n

/-! ## The wide view (R198, R240) -/

/-- The address operand of an engine's scratchpad command: a wide-view byte address, or ring-relative with bit 23. -/
structure WideAddr where
  ring : Bool
  /-- the ring index, when ring-relative -/
  idx  : Nat := 0
  /-- the byte address, or the byte offset in the ring -/
  a    : Int
  /-- the PTR it came from, for its bounds -/
  ptr  : Word := 0
  deriving DecidableEq, Repr

/-- Bit 23, the ring index and the offset of a ring-relative offset (R198). -/
def isRingForm (o : Nat) : Bool := decide (o / 8388608 % 2 = 1)
def ringIdx (o : Nat) : Nat := o / 524288 % 16
def ringOff (o : Nat) : Nat := o % 524288

/-- The address operand of R240: a PTR, or an INT with bit 23 set; any other tag, and an INT without bit 23, is the tag fault. -/
def wideOperand (w : TWord) : Except Ev WideAddr :=
  match w.tag with
  | .ptr => .ok { ring := false, a := ptrAddr w.val, ptr := w.val }
  | .int =>
    let o := fld w.val 0 24
    if isRingForm o then .ok { ring := true, idx := ringIdx o, a := ringOff o } else .error (evTag .int)
  | .poison => .error { code := 0x18 }
  | t => .error (evTag t)

/-- The 24-bit wide-view address that a queue entry keeps (Tables 7-13 and 8-11). -/
def WideAddr.field (x : WideAddr) : Nat :=
  if x.ring then 8388608 + x.idx * 524288 + x.a.toNat % 524288 else (x.a % 8388608).toNat

/-- The lowest byte and the extent [lowest, highest + 1) of n rows of `len` bytes at pitch p (R240). -/
def pitchExtent (a : Int) (p : Int) (n len : Nat) : Int × Nat :=
  let last := a + p * (n - 1 : Nat)
  (min a last, ((max a last) - (min a last)).toNat + len)

end Sys2Proof.Machine
end

