-- ==== Sys2Proof/Machine/Flags.lean ====
section
/-! DEFINITION. Flag computations: the IEEE exception flags, FSR, and the rounding field (spec 03 R95, R102, R103, Table 3-9). -/

namespace Sys2Proof.Machine

/-- IEEE exception flags in the layout of FSR.FLAGS: NV 4, DZ 3, OF 2, UF 1, NX 0. -/
abbrev Flags := BitVec 5

def fNone : Flags := 0
def fNX : Flags := 1
def fUF : Flags := 2
def fOF : Flags := 4
def fDZ : Flags := 8
def fNV : Flags := 16

/-- Rounding attributes (Table 3-9). -/
inductive Rnd where
  | ties | zero | up | down | away
  deriving DecidableEq, Repr

/-- The attribute of an rm code 0 to 4. -/
def Rnd.ofCode : Nat → Option Rnd
  | 0 => some .ties
  | 1 => some .zero
  | 2 => some .up
  | 3 => some .down
  | 4 => some .away
  | _ => none

/-- FSR.RM, FSR.TE and FSR.FLAGS (R95). -/
def Thread.rm (th : Thread) : Nat := th.fsr.toNat / 32 % 8
def Thread.te (th : Thread) : Flags := BitVec.ofNat 5 (th.fsr.toNat / 256)
def Thread.flags (th : Thread) : Flags := BitVec.ofNat 5 th.fsr.toNat

/-- The rounding that an rm field selects: 7 takes FSR.RM; 5, 6 and an FSR.RM of 5 to 7 are illegal (Table 3-9). -/
def Thread.rounding (th : Thread) (rm : Nat) : Option Rnd :=
  if rm = 7 then Rnd.ofCode th.rm else Rnd.ofCode rm

/-- ORing exceptions into FSR.FLAGS (R103). -/
def Thread.orFlags (th : Thread) (f : Flags) : Thread := { th with fsr := th.fsr ||| f.setWidth 13 }

/-- The exceptions raised whose trap enable is set (R103). -/
def trapping (te f : Flags) : Flags := te &&& f

end Sys2Proof.Machine
end

