-- ==== Sys2Proof/Machine/Float.lean ====
section
/-! DEFINITION. IEEE 754-2019 arithmetic on exact integers, for binary64 (R102) and binary32 (R214, R215): tininess after rounding, NaN propagation by operand order. -/

namespace Sys2Proof.Machine

/-- A binary interchange format: precision, exponent field width and largest exponent. -/
structure Fmt where
  p    : Nat
  w    : Nat
  emax : Nat
  deriving DecidableEq, Repr

def b64 : Fmt := ⟨53, 11, 1023⟩
def b32 : Fmt := ⟨24, 8, 127⟩

def Fmt.emin (f : Fmt) : Int := 1 - (f.emax : Int)
/-- The exponent of the last place of subnormals. -/
def Fmt.qmin (f : Fmt) : Int := f.emin - (f.p - 1 : Nat)
def Fmt.expMax (f : Fmt) : Nat := 2 ^ f.w - 1
def Fmt.signBit (f : Fmt) : Nat := 2 ^ (f.p - 1 + f.w)
def Fmt.qnan (f : Fmt) : Nat := f.expMax * 2 ^ (f.p - 1) + 2 ^ (f.p - 2)

/-- A value: a NaN (signalling or quiet), an infinity, or sign and m × 2^e. -/
inductive FV where
  | nan (sig : Bool)
  | inf (s : Bool)
  | fin (s : Bool) (m : Nat) (e : Int)
  deriving DecidableEq, Repr

def Fmt.sign (f : Fmt) (x : Nat) : Bool := decide (x / f.signBit % 2 = 1)
def Fmt.frac (f : Fmt) (x : Nat) : Nat := x % 2 ^ (f.p - 1)
def Fmt.exp (f : Fmt) (x : Nat) : Nat := x / 2 ^ (f.p - 1) % 2 ^ f.w

/-- Reading an encoding. -/
def Fmt.dec (f : Fmt) (x : Nat) : FV :=
  let fr := f.frac x
  let e := f.exp x
  if e = f.expMax then
    if fr = 0 then .inf (f.sign x) else .nan (decide (fr < 2 ^ (f.p - 2)))
  else if e = 0 then .fin (f.sign x) fr f.qmin
  else .fin (f.sign x) (2 ^ (f.p - 1) + fr) ((e : Int) - f.emax - (f.p - 1 : Nat))

def Fmt.withSign (f : Fmt) (s : Bool) (mag : Nat) : Nat := if s then f.signBit + mag else mag
def Fmt.infBits (f : Fmt) (s : Bool) : Nat := f.withSign s (f.expMax * 2 ^ (f.p - 1))
def Fmt.maxBits (f : Fmt) (s : Bool) : Nat := f.withSign s (f.expMax * 2 ^ (f.p - 1) - 1)
def Fmt.zero (f : Fmt) (s : Bool) : Nat := f.withSign s 0

/-- The encoding of m × 2^q, m below 2^p, q at least qmin, and q = qmin when m is below 2^(p-1). -/
def Fmt.enc (f : Fmt) (s : Bool) (m : Nat) (q : Int) : Nat :=
  if m < 2 ^ (f.p - 1) then f.withSign s m
  else f.withSign s ((q - f.qmin + 1).toNat * 2 ^ (f.p - 1) + (m - 2 ^ (f.p - 1)))

/-- Whether to round the magnitude up: `q` the kept part, `r` of 2^k the part dropped (Table 3-9). -/
def roundsUp (rm : Rnd) (s : Bool) (q r half : Nat) : Bool :=
  match rm with
  | .ties => decide (half < r) || (decide (half = r) && decide (q % 2 = 1))
  | .zero => false
  | .up => !s && decide (r ≠ 0)
  | .down => s && decide (r ≠ 0)
  | .away => decide (half ≤ r)

/-- m × 2^e cut to a multiple of 2^q: the kept integer after rounding, and whether anything was lost. -/
def cutTo (rm : Rnd) (s : Bool) (m : Nat) (e q : Int) : Nat × Bool :=
  if q ≤ e then (m * 2 ^ (e - q).toNat, false)
  else
    let k := (q - e).toNat
    let r := m % 2 ^ k
    let t := m / 2 ^ k
    -- k is at least 1 here; a half is 2^(k-1), compared doubled
    (if roundsUp rm s t (2 * r) (2 ^ k) then t + 1 else t, decide (r ≠ 0))

/-- Number of significant bits. -/
def bitLen (m : Nat) : Nat := if m = 0 then 0 else Nat.log2 m + 1

/-- Rounding (-1)^s × m × 2^e to the format: the encoding and OF, UF, NX. -/
def Fmt.round (f : Fmt) (rm : Rnd) (s : Bool) (m : Nat) (e : Int) : Nat × Flags :=
  if m = 0 then (f.zero s, fNone)
  else
    let top := e + (bitLen m : Int) - 1
    let q := max (top - (f.p - 1 : Nat)) f.qmin
    let (t, lost) := cutTo rm s m e q
    let carry := decide (t = 2 ^ f.p)
    let t' := if carry then 2 ^ (f.p - 1) else t
    let q' := if carry then q + 1 else q
    if (f.emax : Int) < q' + (f.p - 1 : Nat) ∧ 2 ^ (f.p - 1) ≤ t' then
      let toInf := match rm with
        | .ties | .away => true
        | .zero => false
        | .up => !s
        | .down => s
      (if toInf then f.infBits s else f.maxBits s, fOF ||| fNX)
    else
      -- tininess after rounding: rounded with unbounded exponent, still below 2^emin
      let qu := top - (f.p - 1 : Nat)
      let (tu, _) := cutTo rm s m e qu
      let tiny := decide (top < f.emin) && !(decide (top = f.emin - 1) && decide (tu = 2 ^ f.p))
      (f.enc s t' q', (if lost then fNX else fNone) ||| (if tiny && lost then fUF else fNone))

/-- The same for a value with a sticky remainder below its last place. -/
def Fmt.roundSticky (f : Fmt) (rm : Rnd) (s : Bool) (m : Nat) (e : Int) (more : Bool) : Nat × Flags :=
  f.round rm s (2 * m + b2n more) (e - 1)

/-- Quietening a NaN, its payload kept. -/
def Fmt.quiet (f : Fmt) (x : Nat) : Nat := if x / 2 ^ (f.p - 2) % 2 = 1 then x else x + 2 ^ (f.p - 2)

def Fmt.isNan (f : Fmt) (x : Nat) : Bool := f.exp x == f.expMax && decide (f.frac x ≠ 0)
def Fmt.isSnan (f : Fmt) (x : Nat) : Bool := f.isNan x && decide (f.frac x < 2 ^ (f.p - 2))

/-- The NaN result of operands of which at least one may be a NaN: the first NaN operand, quietened; NV when any signals (R102, R215). -/
def Fmt.nanOf (f : Fmt) (xs : List Nat) : Option (Nat × Flags) :=
  match xs.find? f.isNan with
  | none => none
  | some x => some (f.quiet x, if xs.any f.isSnan then fNV else fNone)

/-- Sum of two finite values, exact, as sign, magnitude and exponent. -/
def addExact (rm : Rnd) (s1 : Bool) (m1 : Nat) (e1 : Int) (s2 : Bool) (m2 : Nat) (e2 : Int) : Bool × Nat × Int :=
  let e := min e1 e2
  let a : Int := (if s1 then -1 else 1) * ((m1 * 2 ^ (e1 - e).toNat : Nat) : Int)
  let b : Int := (if s2 then -1 else 1) * ((m2 * 2 ^ (e2 - e).toNat : Nat) : Int)
  let r := a + b
  if r = 0 then
    (if s1 = s2 ∧ m1 = 0 ∧ m2 = 0 then s1 else decide (rm = .down), 0, e)
  else (decide (r < 0), r.natAbs, e)

/-- addition. -/
def Fmt.add (f : Fmt) (rm : Rnd) (x y : Nat) : Nat × Flags :=
  match f.nanOf [x, y] with
  | some r => r
  | none =>
    match f.dec x, f.dec y with
    | .inf s1, .inf s2 => if s1 = s2 then (f.infBits s1, fNone) else (f.qnan, fNV)
    | .inf s, _ => (f.infBits s, fNone)
    | _, .inf s => (f.infBits s, fNone)
    | .fin s1 m1 e1, .fin s2 m2 e2 =>
      let (s, m, e) := addExact rm s1 m1 e1 s2 m2 e2
      f.round rm s m e
    | _, _ => (f.qnan, fNV)

/-- negate: the sign bit alone. -/
def Fmt.neg (f : Fmt) (x : Nat) : Nat := if f.sign x then x - f.signBit else x + f.signBit
def Fmt.abs (f : Fmt) (x : Nat) : Nat := if f.sign x then x - f.signBit else x
def Fmt.copySign (f : Fmt) (x y : Nat) : Nat := if f.sign x = f.sign y then x else f.neg x

/-- subtraction: NaNs by operand order, unnegated. -/
def Fmt.sub (f : Fmt) (rm : Rnd) (x y : Nat) : Nat × Flags :=
  match f.nanOf [x, y] with
  | some r => r
  | none => f.add rm x (f.neg y)

/-- multiplication. -/
def Fmt.mul (f : Fmt) (rm : Rnd) (x y : Nat) : Nat × Flags :=
  match f.nanOf [x, y] with
  | some r => r
  | none =>
    match f.dec x, f.dec y with
    | .inf s1, .inf s2 => (f.infBits (s1 != s2), fNone)
    | .inf s1, .fin s2 m _ => if m = 0 then (f.qnan, fNV) else (f.infBits (s1 != s2), fNone)
    | .fin s1 m _, .inf s2 => if m = 0 then (f.qnan, fNV) else (f.infBits (s1 != s2), fNone)
    | .fin s1 m1 e1, .fin s2 m2 e2 => f.round rm (s1 != s2) (m1 * m2) (e1 + e2)
    | _, _ => (f.qnan, fNV)

/-- division. -/
def Fmt.div (f : Fmt) (rm : Rnd) (x y : Nat) : Nat × Flags :=
  match f.nanOf [x, y] with
  | some r => r
  | none =>
    match f.dec x, f.dec y with
    | .inf _, .inf _ => (f.qnan, fNV)
    | .inf s1, .fin s2 _ _ => (f.infBits (s1 != s2), fNone)
    | .fin s1 _ _, .inf s2 => (f.zero (s1 != s2), fNone)
    | .fin s1 m1 e1, .fin s2 m2 e2 =>
      let s := s1 != s2
      if m2 = 0 then (if m1 = 0 then (f.qnan, fNV) else (f.infBits s, fDZ))
      else if m1 = 0 then (f.zero s, fNone)
      else
        let k := 2 * f.p + 2
        let n := m1 * 2 ^ k
        f.roundSticky rm s (n / m2) (e1 - e2 - k) (decide (n % m2 ≠ 0))
    | _, _ => (f.qnan, fNV)

/-- Integer square root, bit by bit from bit k - 1 down. -/
def isqrtAux (n : Nat) : Nat → Nat → Nat
  | 0, r => r
  | k + 1, r => isqrtAux n k (if (r + 2 ^ k) * (r + 2 ^ k) ≤ n then r + 2 ^ k else r)

def isqrt (n : Nat) : Nat := isqrtAux n (bitLen n / 2 + 1) 0

/-- squareRoot. -/
def Fmt.sqrt (f : Fmt) (rm : Rnd) (x : Nat) : Nat × Flags :=
  match f.nanOf [x] with
  | some r => r
  | none =>
    match f.dec x with
    | .inf s => if s then (f.qnan, fNV) else (f.infBits false, fNone)
    | .fin s m e =>
      if m = 0 then (f.zero s, fNone)
      else if s then (f.qnan, fNV)
      else
        -- an even exponent and at least 2p + 2 bits under the root
        let k := 2 * f.p + 4 + (if (e - (2 * f.p + 4 : Nat)) % 2 = 0 then 0 else 1)
        let n := m * 2 ^ k
        let r := isqrt n
        f.roundSticky rm false r ((e - k) / 2) (decide (r * r ≠ n))
    | _ => (f.qnan, fNV)

/-- remainder(x, y). -/
def Fmt.rem (f : Fmt) (x y : Nat) : Nat × Flags :=
  match f.nanOf [x, y] with
  | some r => r
  | none =>
    match f.dec x, f.dec y with
    | .inf _, _ => (f.qnan, fNV)
    | .fin _ _ _, .inf _ => (x, fNone)
    | .fin s1 m1 e1, .fin _ m2 e2 =>
      if m2 = 0 then (f.qnan, fNV)
      else
        let e := min e1 e2
        let a := m1 * 2 ^ (e1 - e).toNat
        let b := m2 * 2 ^ (e2 - e).toNat
        let n := a / b
        let r := a % b
        let up := roundsUp .ties false n (2 * r) b
        if up then f.round .ties (!s1) (b - r) e
        else if r = 0 then (f.zero s1, fNone) else f.round .ties s1 r e
    | _, _ => (f.qnan, fNV)

/-- fusedMultiplyAdd with the signs of the product and of the addend negated on request (R104). DESIGN CHOICE: of zero times infinity with a quiet NaN addend, where IEEE 754-2019 lets the implementation signal or not, the NaN is delivered with no NV (log entry 109). -/
def Fmt.fma (f : Fmt) (rm : Rnd) (negP negC : Bool) (x y z : Nat) : Nat × Flags :=
  let prodInv := match f.dec x, f.dec y with
    | .inf _, .fin _ m _ => decide (m = 0)
    | .fin _ m _, .inf _ => decide (m = 0)
    | _, _ => false
  match f.nanOf [x, y, z] with
  | some r => r
  | none =>
    if prodInv then (f.qnan, fNV)
    else
      let z' := if negC then f.neg z else z
      match f.dec x, f.dec y, f.dec z' with
      | .fin s1 m1 e1, .fin s2 m2 e2, .fin s3 m3 e3 =>
        let sp := (s1 != s2) != negP
        let (s, m, e) := addExact rm sp (m1 * m2) (e1 + e2) s3 m3 e3
        f.round rm s m e
      | .fin _ _ _, .fin _ _ _, .inf s3 => (f.infBits s3, fNone)
      | _, _, .inf s3 =>
        let sp := (f.sign x != f.sign y) != negP
        if sp = s3 then (f.infBits s3, fNone) else (f.qnan, fNV)
      | _, _, _ => (f.infBits ((f.sign x != f.sign y) != negP), fNone)

/-- x < y for two values that are not NaN; -0 and +0 are equal. -/
def Fmt.lt (f : Fmt) (x y : Nat) : Bool :=
  match f.sign x, f.sign y with
  | false, false => decide (f.abs x < f.abs y)
  | true, true => decide (f.abs y < f.abs x)
  | true, false => !(decide (f.abs x = 0) && decide (f.abs y = 0))
  | false, true => false

/-- x = y for two values that are not NaN. -/
def Fmt.eqv (f : Fmt) (x y : Nat) : Bool := decide (x = y) || (decide (f.abs x = 0) && decide (f.abs y = 0))

/-- compareQuietEqual. -/
def Fmt.cmpEq (f : Fmt) (x y : Nat) : Bool × Flags :=
  if f.isNan x || f.isNan y then (false, if f.isSnan x || f.isSnan y then fNV else fNone) else (f.eqv x y, fNone)

/-- compareSignalingLess. -/
def Fmt.cmpLt (f : Fmt) (x y : Nat) : Bool × Flags :=
  if f.isNan x || f.isNan y then (false, fNV) else (f.lt x y, fNone)

/-- compareSignalingLessEqual. -/
def Fmt.cmpLe (f : Fmt) (x y : Nat) : Bool × Flags :=
  if f.isNan x || f.isNan y then (false, fNV) else (f.lt x y || f.eqv x y, fNone)

/-- compareQuietUnordered. -/
def Fmt.cmpUn (f : Fmt) (x y : Nat) : Bool × Flags :=
  (f.isNan x || f.isNan y, if f.isSnan x || f.isSnan y then fNV else fNone)

/-- x before y with -0 before +0, neither a NaN. -/
def Fmt.before (f : Fmt) (x y : Nat) : Bool := f.lt x y || (f.eqv x y && f.sign x)

/-- minimum and maximum. -/
def Fmt.minimum (f : Fmt) (x y : Nat) : Nat × Flags :=
  match f.nanOf [x, y] with
  | some r => r
  | none => (if f.before x y then x else y, fNone)

def Fmt.maximum (f : Fmt) (x y : Nat) : Nat × Flags :=
  match f.nanOf [x, y] with
  | some r => r
  | none => (if f.before x y then y else x, fNone)

/-- The Number forms: a NaN yields to a number; a signalling NaN raises NV. -/
def Fmt.numForm (f : Fmt) (g : Nat → Nat → Nat × Flags) (x y : Nat) : Nat × Flags :=
  let nv := if f.isSnan x || f.isSnan y then fNV else fNone
  match f.isNan x, f.isNan y with
  | true, true => (f.quiet x, nv)
  | true, false => (y, nv)
  | false, true => (x, nv)
  | false, false => g x y

/-- scaleB. -/
def Fmt.scaleB (f : Fmt) (rm : Rnd) (x : Nat) (n : Int) : Nat × Flags :=
  match f.nanOf [x] with
  | some r => r
  | none =>
    match f.dec x with
    | .fin s m e => f.round rm s m (e + max (-10000) (min 10000 n))
    | _ => (x, fNone)

/-- floor(log2 |x|) of a finite value that is not zero. -/
def FV.log2 : FV → Int
  | .fin _ m e => e + (Nat.log2 m : Int)
  | _ => 0

/-- A finite value rounded to an integer in a direction, and whether that was inexact. -/
def toIntegral (rm : Rnd) (s : Bool) (m : Nat) (e : Int) : Int × Bool :=
  let (t, lost) := cutTo rm s m e 0
  (if s then -(t : Int) else (t : Int), lost)

/-- roundToIntegral, and roundToIntegralExact when `exact` (NX). -/
def Fmt.rint (f : Fmt) (rm : Rnd) (exact : Bool) (x : Nat) : Nat × Flags :=
  match f.nanOf [x] with
  | some r => r
  | none =>
    match f.dec x with
    | .fin s m e =>
      let (i, lost) := toIntegral rm s m e
      let r := if i = 0 then f.zero s else (f.round .ties s i.natAbs 0).1
      (r, if exact && lost then fNX else fNone)
    | _ => (x, fNone)

/-- nextUp. -/
def Fmt.nextUp (f : Fmt) (x : Nat) : Nat × Flags :=
  match f.nanOf [x] with
  | some r => r
  | none =>
    if f.sign x then
      if f.abs x = 0 then (1, fNone) else (x - 1, fNone)
    else if x = f.infBits false then (x, fNone) else (x + 1, fNone)

/-- nextDown(x) = -nextUp(-x). -/
def Fmt.nextDown (f : Fmt) (x : Nat) : Nat × Flags :=
  match f.nanOf [x] with
  | some r => r
  | none => (f.neg (f.nextUp (f.neg x)).1, fNone)

/-- Conversion to an integer range with saturation: NaN gives 0; both raise NV; inexact raises NX (Table 3-10, R224). DESIGN CHOICE for FCVT.I and FCVT.U: NX of an inexact conversion, where Table 3-10 names NV alone and IEEE 754-2019 has both forms (log entry 109). -/
def Fmt.toInt (f : Fmt) (rm : Rnd) (lo hi : Int) (x : Nat) : Int × Flags :=
  match f.dec x with
  | .nan _ => (0, fNV)
  | .inf s => (if s then lo else hi, fNV)
  | .fin s m e =>
    let (i, lost) := toIntegral rm s m e
    if i < lo then (lo, fNV) else if hi < i then (hi, fNV) else (i, if lost then fNX else fNone)

/-- An integer to the format. -/
def Fmt.ofInt (f : Fmt) (rm : Rnd) (i : Int) : Nat × Flags := f.round rm (decide (i < 0)) i.natAbs 0

/-- One format to another; a NaN keeps its leading payload bits and is quietened. -/
def Fmt.convert (f g : Fmt) (rm : Rnd) (x : Nat) : Nat × Flags :=
  match f.dec x with
  | .nan sig =>
    let pay := f.frac x
    let pay' := if g.p ≤ f.p then pay / 2 ^ (f.p - g.p) else pay * 2 ^ (g.p - f.p)
    (g.withSign (f.sign x) (g.quiet (g.expMax * 2 ^ (g.p - 1) + pay')), if sig then fNV else fNone)
  | .inf s => (g.infBits s, fNone)
  | .fin s m e => g.round rm s m e

/-- FCLASS: one bit set (Table 3-8). -/
def Fmt.classBit (f : Fmt) (x : Nat) : Nat :=
  match f.dec x with
  | .nan sig => if sig then 8 else 9
  | .inf s => if s then 0 else 7
  | .fin s m _ =>
    if m = 0 then (if s then 3 else 4)
    else if f.exp x = 0 then (if s then 2 else 5)
    else (if s then 1 else 6)

end Sys2Proof.Machine
end

