-- ==== Sys2Proof/Machine/Scalar.lean ====
section
/-! DEFINITION. The own parts of the scalar instructions that need no other unit: integer, binary64, data-space, branch, loop, system, move and pointer (spec 03, 04). -/

namespace Sys2Proof.Machine

/-- What issue must know of an instruction that writes one register. -/
def writesReg (rd : Nat) : Thread → IssueInfo := fun _ => { writes := [rd] }

/-! ## Integer group (R99, Table 3-7) -/

/-- Two INT operands to an INT result. -/
def int2 (rd ra rb : Nat) (f : Word → Word → Word) : Body :=
  writeReg rd fun th => do
    let a ← needInt (th.reg ra)
    let b ← needInt (th.reg rb)
    return tint (f a b)

/-- One INT operand. -/
def int1 (rd ra : Nat) (f : Word → Word) : Body :=
  writeReg rd fun th => do
    let a ← needInt (th.reg ra)
    return tint (f a)

/-- ADD: a pointer in either operand, the other INT (R101). -/
def opAdd (rd ra rb : Nat) : Body :=
  writeReg rd fun th => do
    let x := th.reg ra
    let a ← needTag x [.int, .ptr, .sptr]
    let y := th.reg rb
    if x.tag = .int then
      let b ← needTag y [.int, .ptr, .sptr]
      addTagged ⟨b, y.tag⟩ a.toInt (Config.xaddrNoEa a b)
    else
      let b ← needInt y
      addTagged ⟨a, x.tag⟩ b.toInt (Config.xaddrNoEa a b)

/-- SUB: a pointer only as the first operand (R101). -/
def opSub (rd ra rb : Nat) : Body :=
  writeReg rd fun th => do
    let x := th.reg ra
    let a ← needTag x [.int, .ptr, .sptr]
    let b ← needInt (th.reg rb)
    addTagged ⟨a, x.tag⟩ (-b.toInt) (Config.xaddrNoEa a b)

/-- ADDI (R101). -/
def opAddi (rd ra : Nat) (imm : BitVec 16) : Body :=
  writeReg rd fun th => do
    let x := th.reg ra
    let a ← needTag x [.int, .ptr, .sptr]
    addTagged ⟨a, x.tag⟩ imm.toInt (Config.xaddrNoEa a (imm.signExtend 64))

/-- Signed division truncating toward zero; the fixed results of Table 3-7. -/
def divSigned (a b : Word) : Word :=
  if b = 0 then ofInt (-1)
  else if a.toInt = -9223372036854775808 ∧ b.toInt = -1 then a
  else ofInt (a.toInt.tdiv b.toInt)

/-- Signed remainder (Table 3-7). -/
def remSigned (a b : Word) : Word :=
  if b = 0 then a
  else if a.toInt = -9223372036854775808 ∧ b.toInt = -1 then 0
  else ofInt (a.toInt.tmod b.toInt)

def divUnsigned (a b : Word) : Word := if b = 0 then BitVec.ofNat 64 (2 ^ 64 - 1) else BitVec.ofNat 64 (a.toNat / b.toNat)
def remUnsigned (a b : Word) : Word := if b = 0 then a else BitVec.ofNat 64 (a.toNat % b.toNat)

/-- High 64 bits of the signed product. -/
def mulHigh (a b : Word) : Word := ofInt (a.toInt * b.toInt / 18446744073709551616)
def mulHighU (a b : Word) : Word := BitVec.ofNat 64 (a.toNat * b.toNat / 18446744073709551616)

def boolWord (b : Bool) : Word := if b then 1 else 0

/-- Leading zeros, trailing zeros and set bits of a word. -/
def clzWord (a : Word) : Word := BitVec.ofNat 64 (64 - bitLen a.toNat)
def ctzFrom (a : Word) : Nat → Nat → Nat
  | 0, k => k
  | n + 1, k => if a.getLsbD k then k else ctzFrom a n (k + 1)
def ctzWord (a : Word) : Word := BitVec.ofNat 64 (ctzFrom a 64 0)
def popWord (a : Word) : Word := BitVec.ofNat 64 ((List.range 64).countP fun k => a.getLsbD k)

/-- MOVK: one 16-bit field of rd replaced (R100). -/
def opMovk (rd hw : Nat) (imm : BitVec 16) : Body :=
  writeReg rd fun th => do
    let a ← needInt (th.reg rd)
    let m : Word := BitVec.ofNat 64 (65535 * 2 ^ (16 * hw))
    return tint ((a &&& ~~~m) ||| (imm.setWidth 64 <<< (16 * hw)))

/-! ## Binary64 (R102 to R104) -/

/-- The rounding field makes an instruction illegal (Table 3-9). -/
def rmIllegal (th : Thread) (rm : Nat) : Bool := (th.rounding rm).isNone

/-- Info of a rounding instruction. -/
def fpInfo (rd rm : Nat) : Thread → IssueInfo := fun th => { writes := [rd], illegal := rmIllegal th rm }

/-- Delivering a result with its exceptions: the IEEE trap when an enabled one is raised, else flags ORed and the result written (R103). -/
def fpDeliver (c : Core) (t rd : Nat) (w : TWord) (f : Flags) : Res :=
  let th := c.thread t
  let tr := trapping th.te f
  if tr ≠ 0 then .error { code := 0x22, sub := tr.toNat, addr := pcWord th.pc }
  else .ok ((c.updThread t fun th => th.orFlags f).setReg t rd w, .seq, [])

/-- An instruction on two FLT operands. -/
def fp2 (rd ra rb rm : Nat) (f : Rnd → Nat → Nat → TWord × Flags) : Body := fun _ c t => do
  let th := c.thread t
  let a ← needFlt (th.reg ra)
  let b ← needFlt (th.reg rb)
  let r := f ((th.rounding rm).getD .ties) a.toNat b.toNat
  fpDeliver c t rd r.1 r.2

/-- An instruction on one FLT operand. -/
def fp1 (rd ra rm : Nat) (f : Rnd → Nat → TWord × Flags) : Body := fun _ c t => do
  let th := c.thread t
  let a ← needFlt (th.reg ra)
  let r := f ((th.rounding rm).getD .ties) a.toNat
  fpDeliver c t rd r.1 r.2

/-- An FLT result. -/
def fltRes (r : Nat × Flags) : TWord × Flags := (tflt (BitVec.ofNat 64 r.1), r.2)
/-- An INT 0 or 1 result. -/
def cmpRes (r : Bool × Flags) : TWord × Flags := (tint (boolWord r.1), r.2)
/-- An INT result. -/
def intRes (r : Int × Flags) : TWord × Flags := (tint (ofInt r.1), r.2)

/-- logB as INT; NaN, infinity and zero give the most negative integer with NV (Table 3-8). -/
def logbInt (x : Nat) : Int × Flags :=
  match b64.dec x with
  | .fin _ m e => if m = 0 then (-9223372036854775808, fNV) else ((FV.fin false m e).log2, fNone)
  | _ => (-9223372036854775808, fNV)

/-- The fused group (R104). -/
def opFma (rd ra rb rc rm : Nat) (negP negC : Bool) : Body := fun _ c t => do
  let th := c.thread t
  let a ← needFlt (th.reg ra)
  let b ← needFlt (th.reg rb)
  let d ← needFlt (th.reg rc)
  let r := fltRes (b64.fma ((th.rounding rm).getD .ties) negP negC a.toNat b.toNat d.toNat)
  fpDeliver c t rd r.1 r.2

/-- FSCALB: an FLT and an INT operand. -/
def opFscalb (rd ra rb rm : Nat) : Body := fun _ c t => do
  let th := c.thread t
  let a ← needFlt (th.reg ra)
  let b ← needInt (th.reg rb)
  let r := fltRes (b64.scaleB ((th.rounding rm).getD .ties) a.toNat b.toInt)
  fpDeliver c t rd r.1 r.2

/-- Conversions from INT. -/
def opIcvt (rd ra rm : Nat) (signed : Bool) : Body := fun _ c t => do
  let th := c.thread t
  let a ← needInt (th.reg ra)
  let r := fltRes (b64.ofInt ((th.rounding rm).getD .ties) (if signed then a.toInt else a.toNat))
  fpDeliver c t rd r.1 r.2

/-- SCVT.F: exact, raising no flag (R218); a NaN is quietened (R102). -/
def opScvt (rd ra : Nat) : Body :=
  writeReg rd fun th => do
    let a ← needTag (th.reg ra) [.raw, .int]
    return tflt (BitVec.ofNat 64 (b32.convert b64 .ties (a.toNat % 2 ^ 32)).1)

/-! ## Narrow loads and stores (R106 to R109) -/

/-- Bytes that a narrow load reads. -/
def LdKind.size : LdKind → Nat
  | .part sz _ => 2 ^ sz
  | _ => 8

/-- What a load delivers from the word that holds its address (R107). -/
def loadResult (k : LdKind) (w : TWord) (ea : Nat) : Except Ev TWord :=
  let bad : Ev := { code := 0x15, sub := w.tag.toNat, addr := BitVec.ofNat 64 ea }
  match k with
  | .word => if w.tag = .empty then .error bad else .ok w
  | .int =>
    if w.tag = .int ∨ w.tag = .raw then .ok (tint w.val) else if w.tag = .poison then .ok w else .error bad
  | .flt =>
    if w.tag = .flt ∨ w.tag = .raw then .ok (tflt w.val) else if w.tag = .poison then .ok w else .error bad
  | .ptr => if w.tag = .ptr ∨ w.tag = .poison then .ok w else .error bad
  | .hnd => if w.tag = .hnd ∨ w.tag = .poison then .ok w else .error bad
  | .part sz sx =>
    let n := 8 * 2 ^ sz
    let v := w.val.toNat / 2 ^ (8 * (ea % 8)) % 2 ^ n
    let x : Word := if sx then ofInt (sextNat v n) else BitVec.ofNat 64 v
    if w.tag = .int ∨ w.tag = .raw then .ok (tint x)
    else if w.tag = .poison then .ok ⟨x, .poison⟩
    else .error bad

/-- A narrow load: address checks, the tracker, then the memory word. -/
def opLoad (k : LdKind) (rd ra : Nat) (disp : Int) : Body := fun _ c t => do
  let ea ← dataAddress ((c.thread t).reg ra) disp k.size false
  if c.placeHeld t true ea k.size false then
    return (c.placeWait t true ea k.size false, .wait .conflict (.load k rd ra disp), [])
  let w ← loadResult k (c.spad.word (ea / 8 * 8)) ea
  return (c.setReg t rd w, .seq, [])

/-- The tag rule of a narrow store into the word at ea (R108): `whole` is ST. -/
def storeWord (s : Spad) (sz ea : Nat) (w : TWord) : Except Ev Spad :=
  if sz = 3 then .ok (s.setWord ea w)
  else
    let t := s.tagAt ea
    if t = .raw ∨ t = .int ∨ t = .empty then .ok (s.setPart ea (2 ^ sz) w.val.toNat)
    else .error { code := 0x15, sub := t.toNat, addr := BitVec.ofNat 64 ea }

/-- ST (sz = 3) and STS. -/
def opStore (sz rd ra : Nat) (disp : Int) : Body := fun _ c t => do
  let th := c.thread t
  let ptr := th.reg ra
  let _ ← needTag ptr [.ptr]
  let w := th.reg rd
  let _ ← if sz = 3 then (if w.tag = .empty then .error (evTag .empty) else .ok w.val) else needTag w [.int, .raw]
  let ea ← dataAddress ptr disp (2 ^ sz) true
  if c.placeHeld t true ea (2 ^ sz) true then
    return (c.placeWait t true ea (2 ^ sz) true, .wait .conflict (.store sz rd ra disp), [])
  let s ← storeWord c.spad sz ea w
  return ({ c with spad := s }, .seq, [])

/-! ## BMOV (R110 to R112) -/

/-- The operands of a BMOV after its checks: destination, source and count. -/
def bmovCheck (th : Thread) (rd ra rb : Nat) : Except Ev (Nat × Nat × Nat) := do
  let d ← needTag (th.reg rd) [.ptr]
  let s ← needTag (th.reg ra) [.ptr]
  let n ← needInt (th.reg rb)
  if n.toInt < 0 ∨ 65536 < n.toInt then .error (evBounds (Config.xaddrNoEa n 0))
  else if !ptrRange d n.toNat true then .error (evBounds (iWord (ptrAddr d)))
  else if !ptrRange s n.toNat false then .error (evBounds (iWord (ptrAddr s)))
  else
    let da := (ptrAddr d).toNat
    let sa := (ptrAddr s).toNat
    if 0 < n.toNat ∧ da < sa + n.toNat ∧ sa < da + n.toNat then .error (evBounds (BitVec.ofNat 64 da))
    else .ok (da, sa, n.toNat)

/-- BMOV at issue: checks, two tracker entries, and the blocks to follow. -/
def opBmov (rd ra rb : Nat) : Body := fun _ c t => do
  let (d, s, n) ← bmovCheck (c.thread t) rd ra rb
  if n = 0 then return (c, .seq, [])
  if c.trkFree < 2 then return (c, .wait .trkFull (.bmov rd ra rb), [])
  let (c1, i) := c.trkTake true s n false
  let (c2, j) := c1.trkTake true d n true
  return (c2.updThread t fun th => { th with bmov := some { rd := rd, ra := ra, rb := rb, rdEnt := i, wrEnt := j } }, .hold, [])

/-- The tag of destination word w of a block copy of k bytes from s to d (R111). A word that is not copied whole and takes a byte from a POISON word and one from a PTR, SPTR, HND or CODE word is the tag fault: R111 gives both that fault and POISON there, and the model's choice is the fault (log entry 109). -/
def copyTag (sp : Spad) (s d k w : Nat) : Except Ev Tag :=
  let lo := max d (8 * w)
  let hi := min (d + k) (8 * w + 8)
  let srcs := (List.range (hi - lo)).map fun i => s + (lo - d) + i
  let fault (a : Nat) : Ev := { code := 0x15, sub := (sp.tagAt a).toNat, addr := BitVec.ofNat 64 a }
  let whole := decide (hi - lo = 8) && decide ((s + (lo - d)) % 8 = 0)
  match srcs.find? (fun a => sp.tagAt a == .empty) with
  | some a => .error (fault a)
  | none =>
    if whole then .ok (sp.tagAt (s + (lo - d)))
    else if srcs.any fun a => sp.tagAt a == .poison then
      match srcs.find? (fun a => sp.tagAt a != .raw && sp.tagAt a != .int && sp.tagAt a != .flt && sp.tagAt a != .poison) with
      | some a => .error (fault a)
      | none => .ok .poison
    else
      match srcs.find? (fun a => sp.tagAt a != .raw && sp.tagAt a != .int && sp.tagAt a != .flt) with
      | some a => .error (fault a)
      | none => .ok .raw

/-- The tags of the destination words from w on, n of them; the first fault in ascending order. -/
def copyTags (sp : Spad) (s d k : Nat) : Nat → Nat → Except Ev (List (Nat × Tag))
  | _, 0 => .ok []
  | w, n + 1 =>
    match copyTag sp s d k w with
    | .error e => .error e
    | .ok t => (copyTags sp s d k (w + 1) n).map fun r => (w, t) :: r

/-- copy_block of R110: a faulting block writes nothing. -/
def copyBlock (sp : Spad) (s d k : Nat) : Except Ev Spad :=
  match copyTags sp s d k (d / 8) ((d + k - 1) / 8 - d / 8 + 1) with
  | .error e => .error e
  | .ok ts =>
    .ok { bytes := wrBytes sp.bytes d (sp.wideRead s k)
          tags := ts.foldl (fun m p => cset Tag.empty m p.1 p.2) sp.tags }

/-- One block of a running BMOV (R110): without effect while the tracker holds it. -/
def bmovBlock (e : Env) (c : Core) (t : Nat) : Core × List Emit :=
  let th := c.thread t
  match th.bmov with
  | none => (c, [])
  | some b =>
    if c.held || th.st != .run then (c, [])
    else if c.entConflict b.rdEnt || c.entConflict b.wrEnt then
      if b.waited then (c, [])
      else (c.countConfl.updThread t fun th => { th with bmov := some { b with waited := true } }, [])
    else
      let drop := (c.trkDrop b.rdEnt).trkDrop b.wrEnt
      match bmovCheck th b.rd b.ra b.rb with
      | .error ev => raise e drop t ev
      | .ok (d, s, n) =>
        let k := min n (128 - d % 128)
        match copyBlock c.spad s d k with
        | .error ev => raise e drop t ev
        | .ok sp =>
          let c1 := { c with spad := sp }
          let c2 := c1.updThread t fun th =>
            ((th.setReg b.rd ⟨mkPtr (ptrR (th.reg b.rd).val) (ptrW (th.reg b.rd).val) (ptrLen (th.reg b.rd).val)
                (ptrBase (th.reg b.rd).val) (ptrOff (th.reg b.rd).val + k), .ptr⟩).setReg b.ra
              ⟨mkPtr (ptrR (th.reg b.ra).val) (ptrW (th.reg b.ra).val) (ptrLen (th.reg b.ra).val)
                (ptrBase (th.reg b.ra).val) (ptrOff (th.reg b.ra).val + k), .ptr⟩).setReg b.rb (tint (BitVec.ofNat 64 (n - k)))
          if n = k then finish e ((c2.trkDrop b.rdEnt).trkDrop b.wrEnt) t .seq
          else if th.haltPend && th.slot.isNone && !th.shadow then
            -- the HALT is taken between blocks, and the rest of the BMOV lets its entries go
            (((c2.trkDrop b.rdEnt).trkDrop b.wrEnt).updThread t fun th => { th with st := .halt, haltPend := false, bmov := none }, [])
          else
            let c3 := (c2.trkNarrow b.rdEnt (s + k) (n - k)).trkNarrow b.wrEnt (d + k) (n - k)
            (c3.updThread t fun th =>
              { th with bmov := some { b with waited := false } }, [])

/-! ## Branches, jumps and loops (R118 to R122) -/

/-- The condition of Bcc; code 7 is illegal (R119). -/
def condHolds (cond : Nat) (a : Int) : Bool :=
  match cond with
  | 0 => decide (a = 0)
  | 1 => decide (a ≠ 0)
  | 2 => decide (a < 0)
  | 3 => decide (0 ≤ a)
  | 4 => decide (a ≤ 0)
  | 5 => decide (0 < a)
  | _ => true

/-- The branch's address plus 4 × an offset, in the 16-bit program counter. -/
def branchTarget (a : BitVec 16) (off : Int) : BitVec 16 := BitVec.ofInt 16 (a.toNat + 4 * off)

def opBcc (ra cond : Nat) (off : BitVec 18) : Body := fun _ c t => do
  let th := c.thread t
  let a ← needInt (th.reg ra)
  return (c, .branch (if condHolds cond a.toInt then some (branchTarget th.pc off.toInt) else none) (some ra), [])

/-- The link value: CODE of the branch's address + 8 (R120). -/
def linkWord (a : BitVec 16) : TWord := ⟨pcWord (a + 8), .code⟩

def opJal (rd : Nat) (off : BitVec 21) : Body := fun _ c t =>
  let th := c.thread t
  .ok (c.setReg t rd (linkWord th.pc), .branch (some (branchTarget th.pc off.toInt)) none, [])

/-- An instruction address: 4-aligned, then at most 0xFFFC (R117, R120). -/
def codeAddress (w : Word) : Except Ev (BitVec 16) :=
  if w.toNat % 4 ≠ 0 then .error (evAlign w)
  else if 65536 ≤ w.toNat then .error (evBounds w)
  else .ok (BitVec.ofNat 16 w.toNat)

def opJalr (rd ra : Nat) : Body := fun _ c t => do
  let th := c.thread t
  let a ← needTag (th.reg ra) [.code, .int]
  let p ← codeAddress a
  return (c.setReg t rd (linkWord th.pc), .branch (some p) (some ra), [])

/-- LOOP at level 1 when `lv`, else level 0 (R121). LE, and LE + 4 for a skipped body, wrap at 16 bits: R121 does not say what they are past 0xFFFC, and the model's choice is the wrap (log entry 34). -/
def opLoop (lv : Bool) (ra : Nat) (imm : BitVec 13) : Body := fun _ c t => do
  let th := c.thread t
  let n ← needInt (th.reg ra)
  let s := pcNext th.pc
  let le := BitVec.ofNat 16 (th.pc.toNat + 4 * imm.toNat)
  let skip := decide (n.toInt ≤ 0)
  let lc : Word := if skip then 0 else n
  let c' := c.updThread t fun th =>
    if lv then { th with ls1 := s, le1 := le, lc1 := lc } else { th with ls0 := s, le0 := le, lc0 := lc }
  return (c', .goto (if skip then pcNext le else s) false, [])

/-- MFT: the thread register that a selector names (after Table 3-13). -/
def mftValue (th : Thread) (sel : Nat) : Word :=
  match sel with
  | 0 => pcWord th.ls0
  | 1 => pcWord th.le0
  | 2 => th.lc0
  | 3 => pcWord th.ls1
  | 4 => pcWord th.le1
  | 5 => th.lc1
  | _ => th.fsr.setWidth 64

def opMft (rd sel : Nat) : Body := writeReg rd fun th => .ok (tint (mftValue th sel))

/-- MTT: LS and LE take a 4-aligned value below 0x1_0000. -/
def opMtt (ra sel : Nat) : Body := fun _ c t => do
  let a ← needInt ((c.thread t).reg ra)
  match sel with
  | 0 => let p ← codeAddress a; return (c.updThread t fun th => { th with ls0 := p }, .seq, [])
  | 1 => let p ← codeAddress a; return (c.updThread t fun th => { th with le0 := p }, .seq, [])
  | 2 => return (c.updThread t fun th => { th with lc0 := a }, .seq, [])
  | 3 => let p ← codeAddress a; return (c.updThread t fun th => { th with ls1 := p }, .seq, [])
  | 4 => let p ← codeAddress a; return (c.updThread t fun th => { th with le1 := p }, .seq, [])
  | 5 => return (c.updThread t fun th => { th with lc1 := a }, .seq, [])
  | _ => return (c.updThread t fun th => { th with fsr := a.setWidth 13 }, .seq, [])

/-! ## System group (Table 3-14, R138 to R144, R151) -/

/-- SYSC n: with VECMODE = 0 and ENT.n.EN = 0 the illegal instruction fault (R142). -/
def opSysc (n : Nat) : Body := fun _ c t =>
  if !c.vecmode && !mget false c.entEn n then .error (evIllegal (c.thread t))
  else .ok (c, .entry { kind := .sysc, code := n }, [])

def opTrap (n : Nat) : Body := fun _ c _ => .ok (c, .entry { kind := .trap, code := n }, [])

def opRetx : Body := fun _ c t =>
  .ok (c.updThread t Thread.returnX, .ret (c.thread t).xra, [])

def opRetd : Body := fun _ c t =>
  .ok (c.updThread t Thread.returnD, .ret (c.thread t).dra, [])

def opSetm (m : Bool) : Body := fun _ c t => .ok (c.updThread t fun th => { th with smode := m }, .seqShadow, [])

def opArm : Body := fun _ c t => .ok (c.updThread t fun th => { th with arm := true, dfh := false }, .seq, [])

/-! ## Moves and pointers (R123, Table 3-15) -/

def opMov (rd ra : Nat) : Body :=
  writeReg rd fun th => if (th.reg ra).tag = .empty then .error (evTag .empty) else .ok (th.reg ra)

def opTagof (rd ra : Nat) : Body := writeReg rd fun th => .ok (tint (BitVec.ofNat 64 (th.reg ra).tag.toNat))

def opAsraw (rd ra : Nat) : Body :=
  writeReg rd fun th =>
    let w := th.reg ra
    if w.tag = .empty then .error (evTag .empty) else if w.tag = .poison then .ok w else .ok (traw w.val)

def opAs (rd ra : Nat) (t : Tag) : Body :=
  writeReg rd fun th => do
    let a ← needTag (th.reg ra) [.raw, .int, .flt]
    return ⟨a, t⟩

/-- PBASE, PLEN, POFF and PPERM. -/
def opPfield (rd ra : Nat) (f : Word → Int) : Body :=
  writeReg rd fun th => do
    let a ← needTag (th.reg ra) [.ptr]
    return tint (ofInt (f a))

def opPsub (rd ra rb : Nat) : Body :=
  writeReg rd fun th => do
    let p ← needTag (th.reg ra) [.ptr]
    let n ← needInt (th.reg rb)
    let o := ptrOff p
    if o < 0 ∨ (ptrLen p : Int) < o ∨ n.toInt < 0 then .error (evBounds (Config.xaddrNoEa p n))
    else return ⟨mkPtr (ptrR p) (ptrW p) (min n.toNat (ptrLen p - o.toNat)) (ptrBase p + o.toNat) 0, .ptr⟩

def opPrdonly (rd ra : Nat) : Body :=
  writeReg rd fun th => do
    let p ← needTag (th.reg ra) [.ptr]
    return ⟨p &&& ~~~(BitVec.ofNat 64 (2 ^ 62)), .ptr⟩

/-- SCHIP and SKIND. -/
def opSfield (rd ra : Nat) (f : Word → Nat) : Body :=
  writeReg rd fun th => do
    let a ← needTag (th.reg ra) [.sptr]
    return tint (BitVec.ofNat 64 (f a))

/-- The message that an HND of HK MSG names is still held with its epoch, and the endpoint it came by (Table 3-15, R372). -/
def msgHeld (c : Core) (h : Word) : Nat × Bool :=
  let r := c.ringAt (hndIndex h)
  let u := if r.slotKind then r.slot else 1
  let hdr := r.base * 128 + hndPos h * 16
  let chi := rdNat c.spad.bytes (hdr + 5) 1
  (chi, r.msgs.any fun m => decide (m.pos * u = hndPos h) && decide (m.chi = chi) && (m.st == .held)
    && decide (m.epoch = hndEpoch h) && decide ((c.chiAt m.chi).epoch.toNat = hndEpoch h))

/-- MSGPTR: read-only PTRs to the payload before the ring's end and to its wrapped part. -/
def opMsgptr (rd ra : Nat) (part1 : Bool) : Body := fun _ c t => do
  let h ← needHnd ((c.thread t).reg ra) [6]
  let (chi, ok) := msgHeld c h
  if !ok then .error { code := 0x1E, sub := chi }
  else
    let r := c.ringAt (hndIndex h)
    let hdr := r.base * 128 + hndPos h * 16
    let len := rdNat c.spad.bytes hdr 2
    let split := rdNat c.spad.bytes (hdr + 2) 2
    let p := if part1 then mkPtr true false (len - split) (r.base * 128) 0 else mkPtr true false split (hdr + 16) 0
    return (c.setReg t rd ⟨p, .ptr⟩, .seq, [])

/-! ## Creation and instruction memory (R86, R117) -/

def opMkptr (rd ra rb : Nat) (r w : Bool) : Body := fun e c t => do
  let th := c.thread t
  let b ← needInt (th.reg ra)
  let n ← needInt (th.reg rb)
  if b.toInt < 0 ∨ n.toInt < 0 ∨ (e.spadBytes : Int) < b.toInt + n.toInt then .error (evBounds (Config.xaddrNoEa b n))
  else return (c.setReg t rd ⟨mkPtr r w n.toNat b.toNat 0, .ptr⟩, .seq, [])

def opMksptr (rd ra : Nat) : Body :=
  writeReg rd fun th => do
    let a ← needTag (th.reg ra) [.int, .raw]
    return ⟨a, .sptr⟩

def opMkhnd (rd ra : Nat) : Body :=
  writeReg rd fun th => do
    let a ← needInt (th.reg ra)
    if hndOk a then return ⟨a, .hnd⟩ else .error (evBounds (Config.xaddrNoEa a 0))

def opMkcode (rd ra : Nat) : Body :=
  writeReg rd fun th => do
    let a ← needInt (th.reg ra)
    let p ← codeAddress a
    return ⟨pcWord p, .code⟩

def opImld (rd ra : Nat) : Body := fun _ c t => do
  let a ← needInt ((c.thread t).reg ra)
  let p ← codeAddress a
  let k := p.toNat / 4
  let v : Word := (mget imemWiped c.imem k).setWidth 64
  return (c.setReg t rd ⟨v, if mget false c.imark k then .poison else .int⟩, .seq, [])

def opImst (ra rb : Nat) : Body := fun _ c t => do
  let th := c.thread t
  let a ← needInt (th.reg ra)
  let b ← needTag (th.reg rb) [.int, .raw]
  let p ← codeAddress a
  let k := p.toNat / 4
  return ({ c with imem := cset imemWiped c.imem k (b.setWidth 32), imark := cset false c.imark k false }, .seq, [])

end Sys2Proof.Machine
end

