-- ==== Sys2Proof/Machine/Counters.lean ====
section
/-! DEFINITION. Paced holding, sync counters, releases, barrier arrivals (spec 10, 13, 17). -/

namespace Sys2Proof.Machine

/-! ## Holding outbound actions (R522, R523) -/

/-- A held action is a message injection, which has the message places of R361 and none of the 64. -/
def PaceAct.isMessage : PaceAct → Bool
  | .send (.inject _ (.message _)) => true
  | _ => false

/-- A held action that takes one of the 64 places (R523). -/
def PaceAct.takesPlace (a : PaceAct) : Bool :=
  match a with
  | .burst _ => false
  | a => !a.isMessage

/-- Places of the 64-entry hold in use (PACE.HELD.USED). -/
def Pace.used (p : Pace) : Nat := p.held.countP fun h => h.act.takesPlace

/-- The hold has room for one more. -/
def Core.holdRoom (c : Core) : Bool := !c.pace.mode || decide (c.pace.used < 64)

/-- Holding an action with the core's work period (R522). -/
def Core.hold (c : Core) (a : PaceAct) : Core :=
  let p := c.pace
  let p' := { p with held := p.held ++ [HeldAct.mk p.work a] }
  { c with pace := { p' with peak := max p.peak p'.used } }

/-- A paced emission: held in paced mode, else sent at once (R522). -/
def Core.outbound (c : Core) (em : Emit) : Core × List Emit :=
  if c.pace.mode then (c.hold (.send em), []) else (c, [em])

/-! ## Counters (R322 to R330) -/

/-- An increment reaching local counter n: a sum above 2^64 - 1 stays there and marks it broken (R326). -/
def Core.scAdd (c : Core) (n amt : Nat) : Core :=
  let v := (c.scAt n).toNat + amt
  if v < 2 ^ 64 then c.setSc n (BitVec.ofNat 64 v)
  else { c.setSc n (BitVec.ofNat 64 (2 ^ 64 - 1)) with scBrk := c.scBrk ||| BitVec.ofNat 48 (2 ^ n) }

/-- Counter n is broken. -/
def Core.scBroken (c : Core) (n : Nat) : Bool := c.scBrk.getLsbD n

/-- The local counter that a kind-2 address names, when it is this core's. -/
def Env.ownCounter (e : Env) (a : Word) : Option Nat :=
  let n := e.normChip a
  if saChip n = e.chip ∧ saLcid n = e.lcid then saCounter n else none

/-- An increment sent to the counter that an address names: at once when local, else posted with a transaction number (R326, R329, R330). -/
def Core.incAt (e : Env) (c : Core) (issuer : Nat) (a : Word) (amt : Nat) : Core × List Emit :=
  match e.ownCounter a with
  | some n => (c.scAdd n amt, [])
  | none =>
    let na := e.normChip a
    let c' := { c with xid := c.xid + 1,
                       writes := c.writes ++ [FarWrite.mk c.xid issuer 4 na none false true] }
    c'.outbound (.svc na c.xid (.inc na amt))

/-- An increment of the counter at an address may go: this core's own counter needs no place in the hold, and a posted one does in paced mode (R522, R523). -/
def Core.incMay (e : Env) (c : Core) (a : Word) : Bool := (e.ownCounter a).isSome || c.holdRoom

/-- Forgetting reports of broken counters and lines that have been cleared, so that a later break is reported again (R336). -/
def Core.forgetTold (c : Core) (cleared : Nat → Bool) : Core :=
  (List.range 4).foldl (fun c k => let g := c.eng k; c.setEng k { g with told := g.told.filter fun s => !cleared s }) c

/-- Clearing counters and their broken bits (R323). -/
def Core.scClear (c : Core) (mask : BitVec 48) : Core :=
  { c with sc := c.sc.filter (fun p => !mask.getLsbD p.1), scBrk := c.scBrk &&& ~~~mask }.forgetTold fun s => decide (s < 48) && mask.getLsbD s

/-- Clearing generation counters (R347). -/
def Core.bgenClear (c : Core) (mask : BitVec 8) : Core := { c with bgen := c.bgen.filter fun p => !mask.getLsbD p.1 }

/-! ## Releases (R420, R421) -/

/-- A release of an issuer at a scope has nothing left to wait for: no earlier unacknowledged write of the issuer targets the scope; a failed write goes on counting (R429). -/
def Core.released (c : Core) (issuer scope : Nat) : Bool :=
  !c.writes.any fun w => decide (w.issuer = issuer) && decide (w.scope ≤ scope) && !w.inc

/-! ## Barrier arrivals (R337 to R339) -/

/-- Core c participates in line n on this die (R337, R344). -/
def Core.inLine (e : Env) (c : Core) (n : Nat) : Bool := c.part.getLsbD n && e.blxLocal.getLsbD n

/-- Setting arrive bit n, held in paced mode (R342). -/
def Core.arriveAt (c : Core) (n : Nat) : Core :=
  if c.pace.mode then c.hold (.arrive n) else { c with arrive := c.arrive ||| BitVec.ofNat 8 (2 ^ n) }

/-- Arrive bit n is set, or an arrival on it is held (R339). -/
def Core.arrived (c : Core) (n : Nat) : Bool :=
  c.arrive.getLsbD n || c.pace.held.any fun h => h.act == .arrive n

/-! ## Operations of major 0x3E (Table 3-16): one step of trying, for a thread or a queue -/

/-- The fields of a format Q word (Table 3-5). -/
def qFn (iw : Nat) : Nat := iw / 2 ^ 22 % 16
def qQ (iw : Nat) : Nat := iw / 2 ^ 19 % 8
def qSc (iw : Nat) : Nat := iw / 2 ^ 17 % 4
def qRa (iw : Nat) : Nat := iw / 2 ^ 12 % 32
def qRb (iw : Nat) : Nat := iw / 2 ^ 7 % 32
def qImm (iw : Nat) : Nat := iw % 128

/-- The instruction word of a format Q operation. -/
def qWord (fn q sc ra rb imm : Nat) : Nat :=
  0x3E * 2 ^ 26 + fn * 2 ^ 22 + q * 2 ^ 19 + sc * 2 ^ 17 + ra * 2 ^ 12 + rb * 2 ^ 7 + imm

/-- The outcome of trying a counter, fence or barrier operation once. -/
inductive CtrTry where
  /-- it completes -/
  | done (c : Core) (em : List Emit)
  /-- it waits for a counter or an arrive bit -/
  | waitCounter
  /-- it waits for write responses -/
  | waitRelease
  /-- the hold of outbound actions is full (R523) -/
  | waitHold
  /-- the counter or line is broken: its SUB in a thread -/
  | broken (sub : Nat)
  deriving DecidableEq, Repr

/-- Trying the operation of word `iw` with operand values `a` and `b`, for an issuer (R326 to R339, R420 to R423). -/
def ctrTry (e : Env) (c : Core) (issuer iw : Nat) (a b : Word) : CtrTry :=
  let n := qImm iw
  let rel := c.released issuer (qSc iw)
  match qFn iw with
  | 0 => .done (c.scAdd n b.toNat) []
  | 1 => if rel then .done (c.scAdd n b.toNat) [] else .waitRelease
  | 2 => if c.incMay e a then let r := Core.incAt e c issuer a b.toNat; .done r.1 r.2 else .waitHold
  | 3 =>
    if !rel then .waitRelease
    else if c.incMay e a then let r := Core.incAt e c issuer a b.toNat; .done r.1 r.2 else .waitHold
  | 4 =>
    if c.scBroken n then .broken n
    else if b.toNat ≤ (c.scAt n).toNat then .done c [] else .waitCounter
  | 5 =>
    if e.blxBrk.getLsbD n then .broken (48 + n)
    else if b.toNat ≤ (c.bgenAt n).toNat then .done c [] else .waitCounter
  | 6 => if rel then .done c [] else .waitRelease
  | 7 => .done c []
  | _ =>
    if !rel then .waitRelease
    else if e.blxBrk.getLsbD n then .broken (48 + n)
    else if c.arrived n then .waitCounter
    else if c.holdRoom then .done (c.arriveAt n) [] else .waitHold

/-- The operand values of the operation, its tag and its bounds checks at issue (R98 items 3 and 5, R124, R325, R331, R338). -/
def ctrOperands (e : Env) (c : Core) (th : Thread) (iw : Nat) : Except Ev (Word × Word) := do
  let fn := qFn iw
  let a ← if fn = 2 ∨ fn = 3 then needTag (th.reg (qRa iw)) [.sptr] else .ok 0
  let b ← if fn ≤ 5 then needInt (th.reg (qRb iw)) else .ok 0
  if fn ≤ 3 ∧ (b.toNat = 0 ∨ 2 ^ 32 ≤ b.toNat) then .error (evBounds 0)
  else if fn = 8 ∧ !Core.inLine e c (qImm iw) then .error (evBounds 0)
  else .ok (a, b)

/-- The far access fault of SCINC.R and SCINC.R.REL, which follows the queue ownership fault (R98 item 7, R125): R125 names a kind-2 SPTR that names no SC register; for an SPTR of another kind the spec names no fault, and the model's choice is the same one, with SUB 0 (log entry 109). -/
def ctrTarget (iw : Nat) (a : Word) : Except Ev Unit :=
  if (qFn iw = 2 ∨ qFn iw = 3) ∧ (saCounter a).isNone then .error (evFar a) else .ok ()

/-- The fields that make an operation of major 0x3E illegal: its index out of range, a q that its row does not allow, or an MXE.Q that does not exist (R41, R97, R124, R125). -/
def ctrIllegal (vcore : Bool) (iw : Nat) : Bool :=
  let fn := qFn iw
  let q := qQ iw
  let imm := qImm iw
  decide (4 < q) || (vcore && decide (q = 1)) || decide (9 < fn) || ((decide (fn = 7) || decide (fn = 9)) && decide (q ≠ 0))
    || (decide (fn = 0 ∨ fn = 1 ∨ fn = 4) && decide (47 < imm)) || (decide (fn = 5 ∨ fn = 8) && decide (7 < imm))

end Sys2Proof.Machine
end

