-- ==== Sys2Proof/Machine/Rings.lean ====
section
/-! DEFINITION. Hardware rings: units, positions, starting and stopping, appends, consuming, credit return and ring-relative addresses (spec 05 R180 to R201). -/

namespace Sys2Proof.Machine

/-- Bytes of a unit (R184). -/
def Ring.unit (r : Ring) : Nat := if r.slotKind then 16 * r.slot else 16

/-- The capacity C in units (R184). -/
def Ring.cap (r : Ring) : Nat := if r.slotKind then r.size * 8 / r.slot else r.size * 8

/-- FILL (R185). -/
def Ring.fill (r : Ring) : Nat := if r.hwrap = r.twrap then r.tail - r.head else r.cap + r.tail - r.head

/-- TAIL after n more units are produced (R186). -/
def Ring.produce (r : Ring) (n : Nat) : Ring :=
  if r.cap ≤ r.tail + n then { r with tail := r.tail + n - r.cap, twrap := !r.twrap } else { r with tail := r.tail + n }

/-- HEAD after n units are passed. -/
def Ring.pass (r : Ring) (n : Nat) : Ring :=
  if r.cap ≤ r.head + n then { r with head := r.head + n - r.cap, hwrap := !r.hwrap } else { r with head := r.head + n }

/-- The lines that two rings occupy overlap. -/
def Ring.overlaps (r q : Ring) : Bool := rangesMeet r.base r.size q.base q.size

/-- The check of STARTING (R182): true when the start is refused. -/
def ringRefused (e : Env) (c : Core) (n : Nat) : Bool :=
  let r := c.ringAt n
  let lines := e.spadBytes / 128
  decide (r.size = 0) || decide (lines < r.base + r.size)
    || decide (4 < r.pkind) || decide (r.crkind = 3)
    || (r.slotKind && (decide (r.slot < 2) || decide (257 < r.slot) || decide (r.cap = 0)))
    || ((r.ckind == 1 || r.crkind == 1) && r.pkind != 1)
    || (r.crkind == 2 && (saCounter r.crt).isNone)
    || (List.range 16).any fun m => m != n && (c.ringAt m).fsm.st != .off && r.overlaps (c.ringAt m)

/-- RING_START: the one step of STARTING (R182). -/
def ringStart (e : Env) (c : Core) (n : Nat) : Core :=
  let r := c.ringAt n
  if r.fsm.st != .starting then c
  else if ringRefused e c n then c.setRing n { r with fsm := r.fsm.startRefused }
  else c.setRing n { r with fsm := r.fsm.startOk, head := 0, tail := 0, hwrap := false, twrap := false, msgs := [], owed := 0 }

/-! ## Consuming and credit (R193 to R196) -/

/-- The bytes of the unit k units past HEAD. -/
def Ring.unitAt (r : Ring) (k : Nat) : Nat := r.base * 128 + (r.head + k) % r.cap * r.unit

/-- How many of the next `n` units HEAD may pass: each once no tracker entry but the channel's own covers it (R195). -/
def passable (c : Core) (r : Ring) (skip : List Nat) : Nat → Nat → Nat
  | 0, k => k
  | n + 1, k =>
    if c.trk.ents.any fun x => !skip.contains x.id && x.loc && rangesMeet x.first x.len (r.unitAt k) r.unit then k
    else passable c r skip n (k + 1)

/-- The units of the consumed messages at HEAD (R193). -/
def consumedUnits : List RMsg → Nat
  | [] => 0
  | m :: r => if m.st = .consumed then m.units + consumedUnits r else 0

/-- The messages after HEAD passes k units, and the units passed of each. -/
def passMsgs : List RMsg → Nat → List RMsg × List (RMsg × Nat)
  | [], _ => ([], [])
  | m :: r, k =>
    if k = 0 then (m :: r, [])
    else if m.units ≤ k then
      let x := passMsgs r (k - m.units)
      (x.1, (m, m.units) :: x.2)
    else ({ m with units := m.units - k } :: r, [(m, k)])

/-- The credit of one message (R366): an item of its stream for a static channel, a packet for a dynamic one. -/
def sendCredit (e : Env) (acc : Core × List Emit) (p : RMsg × Nat) : Core × List Emit :=
  let c := acc.1
  let m := p.1
  if (c.chiAt m.chi).dyn then
    (c, acc.2 ++ [.svc (saCore m.chip 1 m.lcid 0) 0 (.credit m.cho m.epoch p.2)])
  else
    let r := c.outbound (.inject (Config.creditStream e.lcid m.chi) (.credit m.epoch m.cho p.2))
    (r.1, acc.2 ++ r.2)

/-- The word is a ring-relative address in ring n of this core (R198). -/
def Env.namesRing (e : Env) (n : Nat) (a : Word) : Bool :=
  match e.localOff a with
  | some o => isRingForm o && ringIdx o == n
  | none => false

/-- The tracker entries that do not hold HEAD of ring n: the read entry of every queued transfer of the channel that consumes it, whose source is this ring (R195, R300). -/
def ringSkip (e : Env) (c : Core) (n : Nat) : List Nat :=
  let r := c.ringAt n
  if r.ckind = 2 ∨ r.ckind = 3 then
    (c.dma (r.ckind - 2)).eng.q.flatMap fun h => if 2 ≤ h.trk.length ∧ e.namesRing n (h.qw.getD 0 0) = true then h.trk.take 1 else []
  else []

/-- The units of the first passed messages whose credits have room in the hold: the credit of a static channel takes a place, that of a dynamic channel none (R522, R523). -/
def roomUnits (c : Core) : Nat → List (RMsg × Nat) → Nat
  | _, [] => 0
  | room, p :: r =>
    if (c.chiAt p.1.chi).dyn then p.2 + roomUnits c room r
    else match room with
      | 0 => 0
      | k + 1 => p.2 + roomUnits c k r

/-- How many of k units HEAD may pass now: credit that is held for a boundary must have a place, and every other advance needs none (R196, R523). -/
def creditRoom (e : Env) (c : Core) (r : Ring) (k : Nat) : Nat :=
  if !c.pace.mode then k
  else if r.crkind = 1 then roomUnits c (64 - c.pace.used) (passMsgs r.msgs k).2
  else if r.crkind = 2 ∧ (e.ownCounter r.crt).isNone ∧ !c.holdRoom then 0 else k

/-- HEAD of ring n advances as far as it may, and credit returns (R193 to R196). -/
def ringSettle (e : Env) (c : Core) (n : Nat) : Core × List Emit :=
  let r := c.ringAt n
  if r.fsm.st = .off then (c, [])
  else
    let want := if r.ckind = 1 then consumedUnits r.msgs else r.owed
    let k := creditRoom e c r (passable c r (ringSkip e c n) want 0)
    if k = 0 then (c, [])
    else
      let x := passMsgs r.msgs k
      let c1 := c.setRing n { r.pass k with msgs := x.1, owed := if r.ckind = 1 then r.owed else r.owed - k }
      if r.crkind = 1 then x.2.foldl (sendCredit e) (c1, [])
      else if r.crkind = 2 then Core.incAt e c1 12 r.crt k
      else (c1, [])

/-- The tick at which the head of a DMA queue was first there with no tracker conflict: T0 of its transfer (R304). -/
def Core.noteHead (e : Env) (c : Core) (ch : Nat) : Core :=
  let d := c.dma ch
  match d.eng.q with
  | [] => c.setDma ch { d with headAt := none }
  | h :: _ =>
    if d.headAt.isSome || c.accConflict h.trk then c else c.setDma ch { d with headAt := some e.tb }
def Core.noteHeads (e : Env) (c : Core) : Core := (c.noteHead e 0).noteHead e 1

/-- Every ring settles, after tracker entries are released or messages consumed, and the heads of the DMA queues are seen. -/
def settleAll (e : Env) (c : Core) : Core × List Emit :=
  let x := (List.range 16).foldl (fun acc n => let r := ringSettle e acc.1 n; (r.1, acc.2 ++ r.2)) (c, [])
  (x.1.noteHeads e, x.2)

/-- What follows a step that may let a thread's tracker entries, or a waiting access's place, go: when the accesses ahead have changed, the rings settle (R195). -/
def Core.settleAfter (e : Env) (c : Core) (r : Core × List Emit) : Core × List Emit :=
  if r.1.ahead = c.ahead then r
  else
    let s := settleAll e r.1
    (s.1, r.2 ++ s.2)

/-- RING.n.ADV (R187): tested as a whole, then both advances. -/
def ringAdv (e : Env) (c : Core) (n hadv tadv : Nat) : Core × List Emit :=
  let r := c.ringAt n
  let bad := r.fsm.st != .on || (decide (hadv ≠ 0) && r.ckind != 0) || (decide (tadv ≠ 0) && r.pkind != 0)
    || decide (r.fill - r.owed < hadv) || decide (r.cap - r.fill < tadv)
  if bad then (c.setRing n { r with aerr := true }, [])
  else ringSettle e (c.setRing n { r.produce tadv with owed := r.owed + hadv }) n

/-- RING_STOP_COMPLETE: no thread holds a message of the ring and no entry covers its bytes (R183). -/
def ringStop (c : Core) (n : Nat) : Core :=
  let r := c.ringAt n
  let held := c.thr.any fun p => match p.2.msg with | some m => m.ring == n | none => false
  if r.fsm.st = .stopping ∧ !held ∧ !c.conflict true (r.base * 128) (r.size * 128) true
  then c.setRing n { r with fsm := r.fsm.stopDone } else c

/-! ## Writing at TAIL -/

/-- Writing bytes into a ring from a unit on, wrapping at its end (R188, R190). -/
def ringWrite (sp : Spad) (r : Ring) (unit off : Nat) (bs : List Byte) (pz : List Nat) : Spad :=
  let span := r.cap * r.unit
  let start := (unit * r.unit + off) % span
  let first := span - start
  let a := r.base * 128 + start
  let head := bs.take first
  let tail := bs.drop first
  let mark (base skip w : Nat) : Bool := pz.contains ((w * 8 + skip - base) / 8)
  let s1 := sp.wideWrite a head (mark a 0)
  if tail.isEmpty then s1 else s1.wideWrite (r.base * 128) tail (mark (r.base * 128) first)

/-- An append of a stream or DMA producer: whole units, the last padded with zero bytes (R190). -/
def ringAppend (c : Core) (n : Nat) (bs : List Byte) (pz : List Nat) (ovf : Bool) : Option Core :=
  let r := c.ringAt n
  let units := (bs.length + r.unit - 1) / r.unit
  if r.fsm.st ≠ .on then some c
  else if r.cap - r.fill < units then none
  else
    let pad := List.replicate (units * r.unit - bs.length) (0 : Byte)
    some { c.setRing n { r.produce units with ovfc := r.ovfc + b2n ovf } with spad := ringWrite c.spad r r.tail 0 (bs ++ pad) pz }

/-- A request pulse to the DMA channel that consumes ring n (R191, R305). -/
def Core.pulse (c : Core) (ch : Nat) : Core :=
  let d := c.dma ch
  c.setDma ch { d with pcnt := min (2 ^ 32 - 1) (d.pcnt + 1) }

/-- The pulse that an append or message gives a DMA consumer. -/
def Core.ringPulse (c : Core) (n : Nat) : Core :=
  let r := c.ringAt n
  if r.ckind = 2 ∨ r.ckind = 3 then c.pulse (r.ckind - 2) else c

/-! ## Ring-relative addresses (R199) -/

/-- ring_resolve: refused with its HCAUSE, waiting, or the first byte. -/
inductive Resolved where
  | refused (cause : Nat)
  | waiting
  | at (first : Nat)
  deriving DecidableEq, Repr

def ringResolve (c : Core) (n o len : Nat) (write : Bool) : Resolved :=
  let r := c.ringAt n
  let span := r.cap * r.unit
  if r.fsm.st ≠ .on then .refused 1
  else if span < o + len then .refused 2
  else if write then
    if o + len ≤ (r.cap - r.fill) * r.unit then .at (r.base * 128 + (r.tail * r.unit + o) % span) else .waiting
  else if o + len ≤ r.fill * r.unit then .at (r.base * 128 + (r.head * r.unit + o) % span)
  else .waiting

/-- A byte address of an access that started at `first` in ring n: bytes beyond the end continue at the base (R199). -/
def ringByte (r : Ring) (first k : Nat) : Nat :=
  let base := r.base * 128
  base + (first - base + k) % (r.cap * r.unit)

end Sys2Proof.Machine
end

