-- ==== Sys2Proof/Machine/Channels.lean ====
section
/-! DEFINITION. Message channels: opening, sending, arrival, dispatch, credit and closing (spec 11, 02 R56 to R61). -/

namespace Sys2Proof.Machine

/-- The reader's core as a system address; chip ID 0xFFF is this chip. -/
def Cho.dest (e : Env) (x : Cho) : Word := e.normChip (saCore x.dchip 1 x.dlcid 0)

/-- The open request of CHO n (R354). -/
def openReqEmit (e : Env) (n : Nat) (x : Cho) : Emit := .svc (x.dest e) 0 (.openReq x.dchi e.chip e.lcid n x.dyn)

/-- OPEN, or EN written as 1 (R353, R354): without effect in OPENING and OPEN. -/
def choOpen (e : Env) (c : Core) (n : Nat) : Core × List Emit :=
  let x := c.choAt n
  match x.fsm.st with
  | .off => (c.setCho n { x with fsm := x.fsm.write true }, [openReqEmit e n x])
  | .stopping => (c.setCho n { x with fsm := x.fsm.write true }, [])
  | _ => (c, [])

/-- The close request of CHO n, placed behind the channel's messages (R368). -/
def Core.queueClose (e : Env) (c : Core) (n : Nat) : Core :=
  let x := c.choAt n
  { c with out := c.out ++ [{ cho := n, dyn := x.dyn, stream := x.stream, dst := x.dest e, dchi := x.dchi, epoch := x.epoch }] }

/-- CLOSE, or EN written as 0, on an outbound endpoint (Table 11-1, R368). -/
def choClose (e : Env) (c : Core) (n : Nat) : Core :=
  let x := c.choAt n
  let c' := c.setCho n { x with fsm := x.fsm.write false }
  if x.fsm.st = .on then c'.queueClose e n else c'

/-- Messages of endpoint m not yet dispatched become consumed (R364). -/
def dropUndispatched (m : Nat) (ms : List RMsg) : List RMsg :=
  ms.map fun x => if x.chi = m ∧ x.st = .undispatched then { x with st := .consumed } else x

/-- Closing inbound endpoint m: epoch, dropped messages, and the close notice when wanted, which says whether it answers a close request (R369, R373). -/
def chiClose (e : Env) (c : Core) (m : Nat) (notice : Bool) (answer : Bool := false) : Core × List Emit :=
  let x := c.chiAt m
  if x.fsm.st = .on ∨ x.fsm.st = .starting then
    let r := c.ringAt x.ring
    let lost := r.msgs.countP fun q => decide (q.chi = m) && q.st == .undispatched
    let c1 := c.setRing x.ring { r with msgs := dropUndispatched m r.msgs }
    let c2 := c1.setChi m { x with fsm := { en := false, st := .off, pend := false, cerr := false }, epoch := x.epoch + 1, peer := none, drop := x.drop + lost }
    let em : List Emit := match notice, x.peer with
      | true, some p => [.svc (e.normChip (saCore p.chip 1 p.lcid 0)) 0 (.closeNotice p.cho x.epoch.toNat answer)]
      | _, _ => []
    let s := ringSettle e c2 x.ring
    (s.1, em ++ s.2)
  else (c, [])

/-- CHI.m.CFG.EN = 1 (R355, Table 19-8). -/
def chiOpen (c : Core) (m : Nat) : Core := let x := c.chiAt m; c.setChi m { x with fsm := x.fsm.write true }

/-- A ring enters STOPPING: every OPEN endpoint bound to it closes in the same step (R183, R369). -/
def ringDisable (e : Env) (c : Core) (n : Nat) : Core × List Emit :=
  let r := c.ringAt n
  let c1 := c.setRing n { r with fsm := r.fsm.write false }
  if r.fsm.st = .on then
    (List.range 64).foldl (fun acc m =>
      let x := acc.1.chiAt m
      if x.fsm.st = .on ∧ x.ring = n then let q := chiClose e acc.1 m true; (q.1, acc.2 ++ q.2) else acc) (c1, [])
  else (c1, [])

/-- Shares already granted from ring n by the other OPEN endpoints (R355). -/
def sharesOf (c : Core) (n m : Nat) : Nat :=
  ((List.range 64).map fun i => let x := c.chiAt i; if i ≠ m ∧ x.fsm.st = .on ∧ x.ring = n then x.share else 0).sum

/-- An open request reaches CHI m (R355, R356). -/
def openArrives (e : Env) (c : Core) (m chip lcid cho : Nat) (dyn : Bool) : Core × List Emit :=
  let x := c.chiAt m
  let r := c.ringAt x.ring
  let back := e.normChip (saCore chip 1 lcid 0)
  let ok := x.fsm.st == .starting && x.dyn == dyn && r.fsm.st == .on && r.pkind == 1 && r.crkind == 1
    && decide (r.ckind ≤ 1) && decide (1 ≤ x.share) && decide (x.share + sharesOf c x.ring m ≤ r.cap)
  if ok then
    (c.setChi m { x with fsm := x.fsm.startOk, peer := some ⟨chip, lcid, cho⟩, last := ⟨chip, lcid, cho⟩ },
     [.svc back 0 (.grant cho x.epoch.toNat r.slotKind r.slot x.share)])
  else (c, [.svc back 0 (.refusal cho 0)])

/-- A grant reaches CHO n (Table 11-1): CREDIT, EPOCH, KIND and SLOT; straight to CLOSING when CLOSE came first. -/
def grantArrives (e : Env) (c : Core) (n epoch : Nat) (slotKind : Bool) (slot units : Nat) : Core :=
  let x := c.choAt n
  if x.fsm.st = .starting then
    let c1 := c.setCho n { x with fsm := x.fsm.startOk, epoch := epoch, slotKind := slotKind, slot := if slotKind then slot else 0, grant := units, credit := units }
    if x.fsm.en then c1 else c1.queueClose e n
  else c

/-- A refusal (CCAUSE 3) or an error response (CCAUSE 4) reaches CHO n (Table 11-1). -/
def refusalArrives (c : Core) (n ccause : Nat) : Core :=
  let x := c.choAt n
  if x.fsm.st = .starting then c.setCho n { x with fsm := { x.fsm.startRefused with cerr := false }, ccause := ccause } else c

/-- CHO n goes to CLOSED on its own account with a CCAUSE; OPENING follows at once when PEND is set, and its open request is sent (R353, R582). -/
def choOwnClear (e : Env) (c : Core) (n ccause : Nat) : Core × List Emit :=
  let x := c.choAt n
  let y := { x with fsm := x.fsm.ownClear, credit := 0, ccause := ccause }
  (c.setCho n y, if y.fsm.st = .starting then [openReqEmit e n y] else [])

/-- A close notice reaches CHO n (Table 11-1, R353, R369): CCAUSE 1 when it answers the close request of a CLOSING one. -/
def closeNoticeArrives (e : Env) (c : Core) (n epoch : Nat) (answer : Bool) : Core × List Emit :=
  let x := c.choAt n
  if (x.fsm.st = .on ∨ x.fsm.st = .stopping) ∧ x.epoch = epoch then
    choOwnClear e c n (if x.fsm.st = .stopping ∧ answer = true then 1 else 2)
  else (c, [])

/-- Returned credit reaches CHO n (R367). -/
def creditArrives (c : Core) (n epoch units : Nat) : Core :=
  let x := c.choAt n
  if x.fsm.st = .on ∧ x.epoch = epoch then c.setCho n { x with credit := min x.grant (x.credit + units) } else c

/-- A close request reaches CHI m (R368); `sender` is that of a dynamic channel's request. -/
def closeReqArrives (e : Env) (c : Core) (m epoch : Nat) (sender : Option Peer) : Core × List Emit :=
  let x := c.chiAt m
  let senderOk : Bool := match sender with | none => true | some p => !x.dyn || x.peer == some p
  if x.fsm.st = .on ∧ x.epoch.toNat = epoch ∧ senderOk = true then chiClose e c m true true else (c, [])

/-! ## Sending (R358 to R362) -/

/-- Message places in use: being read or read and not injected, or held for a boundary (R361, R523). -/
def Core.placesUsed (c : Core) : Nat :=
  c.out.countP (fun o => o.msg.isSome) + c.pace.held.countP (fun h => h.act.isMessage)

/-- Units of a message (R358). -/
def msgUnits (slotKind : Bool) (len : Nat) : Nat := if slotKind then 1 else 1 + (len + 15) / 16

/-- A SEND keeps its place in issue order until its payload has been read (R66, R69, R360; log entry 33). -/
def Core.keepPlace (c : Core) (t a len : Nat) : Core :=
  if (c.thread t).st = .wait ∧ (c.thread t).place.isSome then c else c.takePlace t true a len false

/-- The message of a SEND by thread t on CHO idx, as its header stands when credit is taken; its payload is still to be read (R358, R361). -/
def outOf (e : Env) (c : Core) (t idx len : Nat) : OutMsg :=
  let x := c.choAt idx
  { cho := idx, dyn := x.dyn, stream := x.stream, dst := x.dest e, dchi := x.dchi, epoch := x.epoch, reader := some t
    msg := some { epoch := x.epoch, chi := x.dchi, seq := x.msg % 2 ^ 32, cho := idx, chip := e.chip, lcid := e.lcid, psn := false, data := List.replicate len 0 } }

/-- The test of a SEND by thread t once its operands stand (R358). -/
def sendTest (e : Env) (c : Core) (t idx a len : Nat) (op : Bool → WaitOp) (waited : Bool) : Res :=
  let x := c.choAt idx
  let wait : Res :=
    let c' := if waited then c else c.setCho idx { x with stall := x.stall + 1 }
    .ok (c'.keepPlace t a len, .wait .sendCredit (op true), [])
  match x.fsm.st with
  | .off | .stopping => .error { code := 0x1E, sub := idx }
  | .starting => wait
  | .on =>
    let u := msgUnits x.slotKind len
    if (x.slotKind && decide (16 * x.slot - 16 < len)) || decide (x.grant < u) then .error { code := 0x1D, sub := idx }
    else if u ≤ x.credit ∧ c.placesUsed < 4 then
      let c1 := c.setCho idx { x with credit := x.credit - u, msg := x.msg + 1 }
      let c2 := { c1 with out := c1.out ++ [outOf e c1 t idx len] }
      .ok (c2.keepPlace t a len, .wait .sendRead (.sendRead a len), [])
    else wait

/-- SEND (R126, R358). -/
def opSend (ra rb rc : Nat) (waited : Bool) : Body := fun e c t => do
  let th := c.thread t
  let h ← needHnd (th.reg ra) [1]
  let p ← needTag (th.reg rb) [.ptr]
  let n ← needInt (th.reg rc)
  if n.toInt < 0 ∨ 4096 < n.toInt then .error (evBounds 0)
  else if !ptrRange p n.toNat false then .error (evBounds (iWord (ptrAddr p)))
  else
    let a := (ptrAddr p).toNat
    if !waited && c.placeHeld t true a n.toNat false then
      return (c.placeWait t true a n.toNat false, .wait .conflict (.send ra rb rc waited), [])
    sendTest e c t (hndIndex h) a n.toNat (fun w => .send ra rb rc w) waited

/-- The payload of a message: its bytes, the marked words, and the header's POISON bit (R360). -/
def Msg.fill (m : Msg) (sp : Spad) (a len : Nat) : Msg :=
  let words := (List.range ((len + 7) / 8)).filter fun i => sp.poisonIn (a + 8 * i) (min 8 (len - 8 * i))
  { m with psn := !words.isEmpty, data := sp.wideRead a len, pz := words }

/-- The end of the payload read of thread t's SEND: the message is placed for injection (R360, R361). -/
def sendPlace (c : Core) (t a len : Nat) : Core :=
  { c with out := c.out.map fun o => if o.reader = some t then { o with reader := none, msg := o.msg.map fun m => m.fill c.spad a len } else o }

/-- The oldest message or close request that may leave: it is read, and nothing of its channel stands before it (R351, R368). -/
def nextOut : List Nat → List OutMsg → Option (OutMsg × List OutMsg)
  | _, [] => none
  | behind, o :: r =>
    if o.reader.isNone && !behind.contains o.cho then some (o, r)
    else (nextOut (o.cho :: behind) r).map fun p => (p.1, o :: p.2)

/-- MESSAGE_INJECT: the oldest waiting message or close request leaves (R351, R361, R362, R368). -/
def messageInject (e : Env) (c : Core) : Core × List Emit :=
  match nextOut [] c.out with
  | none => (c, [])
  | some (o, rest) =>
    let c' := { c with out := rest }
    match o.msg with
    | some m =>
      if o.dyn then (c', [.svc o.dst 0 (.message m)]) else c'.outbound (.inject o.stream (.message m))
    | none =>
      if o.dyn then (c', [.svc o.dst 0 (.closeReq o.dchi o.epoch e.chip e.lcid o.cho)])
      else if c.holdRoom then c'.outbound (.inject o.stream (.closeReq o.epoch o.dchi))
      else (c, [])

/-! ## Arrival and dispatch (R363 to R366, R56 to R58) -/

/-- The header of Table 5-4 as 16 bytes. -/
def headerBytes (m : Msg) (split : Nat) : List Byte :=
  leBytes 8 (pack [(m.epoch, 48, 16), (m.chi, 40, 8), (b2n m.psn, 32, 1), (split, 16, 16), (m.data.length, 0, 16)]).toNat
    ++ leBytes 8 (pack [(m.seq, 32, 32), (m.cho, 24, 8), (m.chip, 12, 12), (m.lcid, 0, 12)]).toNat

/-- A message reaches its endpoint (R188 to R192, R363). -/
def messageArrives (c : Core) (m : Msg) : Core :=
  let x := c.chiAt m.chi
  let r := c.ringAt x.ring
  let len := m.data.length
  let u := msgUnits r.slotKind len
  let drop := c.setChi m.chi { x with drop := x.drop + 1 }
  if x.fsm.st ≠ .on ∨ x.epoch.toNat ≠ m.epoch ∨ r.fsm.st ≠ .on ∨ r.cap - r.fill < u then drop
  else
    let toEnd := (r.cap - r.tail) * r.unit - 16
    let split := if r.slotKind then len else min len toEnd
    let pad := if r.slotKind then [] else List.replicate ((16 - len % 16) % 16) (0 : Byte)
    let s1 := ringWrite c.spad r r.tail 0 (headerBytes m split) []
    let s2 := ringWrite s1 r r.tail 16 (m.data ++ pad) m.pz
    let rm : RMsg := { pos := r.tail, units := u, chi := m.chi, epoch := m.epoch, len := len, cho := m.cho, chip := m.chip, lcid := m.lcid }
    let c1 := { (c.setRing x.ring { r.produce u with msgs := r.msgs ++ [rm] }) with spad := s2 }
    c1.setChi m.chi { x with rcv := x.rcv + 1 }

/-- The oldest undispatched message of ring n, when the ring dispatches (R57). -/
def ringOffer (c : Core) (n : Nat) : Option RMsg :=
  let r := c.ringAt n
  if r.ckind = 1 ∧ (r.fsm.st = .on ∨ r.fsm.st = .stopping) then r.msgs.find? fun m => m.st == .undispatched else none

/-- The ring whose offer has the highest handler level, the lowest index first among equals (R57). -/
def bestOffer (c : Core) : Option (Nat × RMsg) :=
  (List.range 16).foldl (fun acc n =>
    match ringOffer c n with
    | none => acc
    | some m =>
      match acc with
      | none => some (n, m)
      | some (_, b) => if (c.chiAt b.chi).lvl < (c.chiAt m.chi).lvl then some (n, m) else acc) none

/-- The lowest-numbered eligible thread (R56, R57). -/
def idleThread (e : Env) (c : Core) : Option Nat :=
  (List.range e.nthr).find? fun t => (c.thread t).st == .idle && (c.thread t).disp

/-- Dispatch of message m of ring n onto thread t (R58, R365). -/
def dispatchTo (e : Env) (c : Core) (n t : Nat) (m : RMsg) : Core :=
  let r := c.ringAt n
  let x := c.chiAt m.chi
  let u := if r.slotKind then r.slot else 1
  let pos := m.pos * u
  let ep := x.epoch.toNat
  let c1 := c.setRing n { r with msgs := r.msgs.map fun q => if q = m then { q with st := .held } else q }
  c1.updThread t fun th =>
    { ((th.setReg 1 ⟨mkHnd 6 n pos ep, .hnd⟩).setReg 2 (tint (BitVec.ofNat 64 m.len))) with
      pc := x.haddr, smode := x.hmode, lc0 := 0, lc1 := 0, st := .run, wcause := .none, waitOp := none
      slot := none, shadow := false, msg := some { ring := n, pos := m.pos, epoch := m.epoch }, wdtFrom := e.tb, wdtFired := false }

/-- HANDLER_DISPATCH: at most one message a step, while CORE.CTL.DISPEN = 1 (R56 to R58). -/
def handlerDispatch (e : Env) (c : Core) : Core :=
  if c.dispen && !c.held then
    match bestOffer c, idleThread e c with
    | some (n, m), some t => dispatchTo e c n t m
    | _, _ => c
  else c

/-- DONE (R59, R193, R366). -/
def opDone : Body := fun e c t =>
  let th := c.thread t
  let c1 := c.updThread t fun th => { th with msg := none }
  match th.msg with
  | none => .ok (c1, .idle, [])
  | some h =>
    let r := c1.ringAt h.ring
    let c2 := c1.setRing h.ring { r with msgs := r.msgs.map fun q =>
      if q.pos = h.pos ∧ q.epoch = h.epoch ∧ q.st = .held then { q with st := .consumed } else q }
    let s := ringSettle e c2 h.ring
    .ok (s.1, .idle, s.2)

/-- OPEN (R354). -/
def opOpen (ra : Nat) : Body := fun e c t => do
  let h ← needHnd ((c.thread t).reg ra) [1]
  let r := choOpen e c (hndIndex h)
  return (r.1, .seq, r.2)

/-- CLOSE on a CHO or a CHI (R368, R369). -/
def opClose (ra : Nat) : Body := fun e c t => do
  let h ← needHnd ((c.thread t).reg ra) [1, 2]
  if hndKind h = 1 then return (choClose e c (hndIndex h), .seq, [])
  else
    let r := chiClose e c (hndIndex h) true
    return (r.1, .seq, r.2)

end Sys2Proof.Machine
end

