-- ==== Sys2Proof/Machine/Engines.lean ====
section
/-! DEFINITION. Engine queues: enqueueing, operations of major 0x3E in a thread or a queue, PACE, events for a queue's owner, parking and the queue window (spec 02 R51 to R55, R684; 03 R124; 07 R259 to R266; 17 R524 to R526). -/

namespace Sys2Proof.Machine

/-! ## Entering a queue (R51 to R53, R68) -/

/-- The owner finds its queue full before anything of the instruction issues (R53). -/
def Core.ownerFull (e : Env) (c : Core) (t k : Nat) : Bool :=
  c.owner e k == some t && decide (qDepth k ≤ (c.eng k).q.length)

/-- The queue ownership fault (R51). -/
def needOwner (e : Env) (c : Core) (t k : Nat) : Except Ev Unit :=
  if c.owner e k = some t then .ok () else .error { code := 0x19, sub := k }

/-- Taking tracker entries for a command's ranges. -/
def takeRanges (c : Core) : List (Bool × Nat × Nat × Bool) → Core × List Nat
  | [] => (c, [])
  | (loc, first, len, wr) :: r =>
    let x := c.trkTake loc first len wr
    let y := takeRanges x.1 r
    (y.1, x.2 :: y.2)

/-- Appending a command to queue k with its ranges: the issue order of the core numbers it, and it captures the codebooks and the Philox key (R49, R52, R62, R213, R227). -/
def Core.push (c : Core) (k : Nat) (qw : List Word) (ranges : List (Bool × Nat × Nat × Bool)) : Core :=
  let x := takeRanges c ranges
  let g := x.1.eng k
  { x.1.setEng k { g with q := g.q ++ [{ qw := qw, trk := x.2, seq := c.seq, key := c.vxe.key, cb := c.mxe.cb }] } with seq := c.seq + 1 }

/-- Enqueueing at issue: waits for tracker entries, else appends and completes (R66, R68). -/
def enqueue (c : Core) (k : Nat) (qw : List Word) (ranges : List (Bool × Nat × Nat × Bool)) (op : WaitOp) : Res :=
  if c.trkFree < ranges.length then .ok (c, .wait .trkFull op, [])
  else .ok (c.push k qw ranges, .seq, [])

/-- The queue entry record of an operation of major 0x3E (Tables 7-13, 8-11, 9-9). -/
def ctrRecord (k iw : Nat) (pc : BitVec 16) (a b : Word) : List Word :=
  if k = 0 then [BitVec.ofNat 64 iw, a, b, 0]
  else if k = 1 then [BitVec.ofNat 64 (iw + pc.toNat * 2 ^ 32), a, b, 0]
  else [a, b, 0, 0, 0, 0, 0, 0, 0, 0, 0, 0, BitVec.ofNat 64 iw]

/-- Word i of a queue entry. -/
def QEnt.w (x : QEnt) (i : Nat) : Word := x.qw.getD i 0

/-- The instruction word of an entry of queue k. -/
def QEnt.iw (x : QEnt) (k : Nat) : Nat := fld (x.w (if k ≤ 1 then 0 else 12)) 0 32

/-- The entry is an operation of major 0x3E, and its operand values. -/
def QEnt.isCtr (x : QEnt) (k : Nat) : Bool := decide (x.iw k / 2 ^ 26 = 0x3E)
def QEnt.ctrA (x : QEnt) (k : Nat) : Word := x.w (if k ≤ 1 then 1 else 0)
def QEnt.ctrB (x : QEnt) (k : Nat) : Word := x.w (if k ≤ 1 then 2 else 1)

/-! ## PACE (R519 to R526) -/

/-- The tick of boundary k (R519). -/
def Pace.boundary (p : Pace) (k : Nat) : Nat := p.t0 + k * p.per

/-- The next period after w that is not a maintenance period (R521, R524). -/
def Pace.next (p : Pace) (w : Nat) : Nat :=
  if p.maint ≠ 0 ∧ (w + 1) % p.maint = p.maint - 1 then w + 2 else w + 1

/-- Every thread of TMASK has executed PACE for the current work period (R524). -/
def Core.paceClosed (e : Env) (c : Core) : Bool :=
  (List.range e.nthr).all fun t => !c.pace.tmask.getLsbD t || ((c.thread t).pdone && decide ((c.thread t).pw = c.pace.work))

/-- PACE.WORK advances at the later of the closure and the next period's boundary (R524). -/
def paceAdvance (e : Env) (c : Core) : Core :=
  let p := c.pace
  let w' := p.next p.work
  if p.mode && c.paceClosed e && decide (p.boundary w' ≤ e.tb) then { c with pace := { p with work := w' } } else c

/-- PACE (R526). -/
def opPace : Body := fun e c t =>
  let p := c.pace
  if !p.mode || !p.tmask.getLsbD t then .ok (c, .seq, [])
  else
    let w := (c.thread t).pw
    let c1 := paceAdvance e (c.updThread t fun th => { th with pdone := true })
    if c1.pace.work ≤ w then .ok (c1, .wait .pace (.pace w), [])
    else .ok (c1.updThread t fun th => { th with pw := c1.pace.work, pdone := false }, .seq, [])

/-! ## Operations of major 0x3E -/

/-- An operation with q = 0, in the issuing thread. -/
def ctrThread (iw : Nat) : Body := fun e c t => do
  let (a, b) ← ctrOperands e c (c.thread t) iw
  ctrTarget iw a
  match ctrTry e c t iw a b with
  | .done c' em => return (c', .seq, em)
  | .waitCounter => return (c, .wait .counter (.ctr iw), [])
  | .waitRelease => return (c, .wait .release (.ctr iw), [])
  | .waitHold => return (c, .wait .pace (.ctr iw), [])
  | .broken sub => .error { code := 0x1F, sub := sub }

/-- An operation with q = 1 to 4, placed in a queue with its captured operands (R124, R325). -/
def ctrQueue (iw : Nat) : Body := fun e c t =>
  let k := qQ iw - 1
  if c.ownerFull e t k then .ok (c, .wait .queueFull (.queue iw), [])
  else do
    let th := c.thread t
    let (a, b) ← ctrOperands e c th iw
    needOwner e c t k
    ctrTarget iw a
    enqueue c k (ctrRecord k iw th.pc a b) [] (.queue iw)

/-- An operation of major 0x3E. -/
def opCtr (iw : Nat) : Body := if qQ iw = 0 then (if qFn iw = 9 then opPace else ctrThread iw) else ctrQueue iw

/-- Info of an operation of major 0x3E. -/
def ctrInfo (vcore : Bool) (iw : Nat) : Thread → IssueInfo := fun _ => { illegal := ctrIllegal vcore iw }

/-! ## Events for the owner of a queue (R290, R684) -/

/-- Delivering an event to thread t: an interrupt to XPEND, a fault or notice to the pending ones. -/
def Thread.deliver (th : Thread) (ev : Ev) : Thread :=
  match ev.kind with
  | .intr =>
    let th' := { th with xpend := th.xpend ||| BitVec.ofNat 5 (2 ^ ev.sub) }
    if ev.sub = 0 then { th' with dmaLvl0 := BitVec.ofNat 3 (ev.code - 0x30) }
    else if ev.sub = 1 then { th' with dmaLvl1 := BitVec.ofNat 3 (ev.code - 0x30) } else th'
  | _ => { th with notices := th.notices ++ [ev] }

/-- An event directed to the owner of queue k: delivered, or held at the queue for want of a valid owner (R684). -/
def Core.notify (e : Env) (c : Core) (k : Nat) (ev : Ev) : Core :=
  match c.owner e k with
  | some t => c.updThread t fun th => th.deliver ev
  | none => let g := c.eng k; c.setEng k { g with held := g.held ++ [ev] }

/-- The held events of queue k go to an owner that has become valid (R684). -/
def Core.deliverHeld (e : Env) (c : Core) (k : Nat) : Core :=
  match c.owner e k with
  | none => c
  | some t =>
    let g := c.eng k
    (g.held.foldl (fun c ev => c.updThread t fun th => th.deliver ev) c).setEng k { g with held := [] }

/-- QOWN_WRITE: RWL until CORE.CTL.LOCK is set (R51, R684). -/
def qownWrite (e : Env) (c : Core) (v : BitVec 16) : Core :=
  if c.lock then c
  else
    let c1 := { c with qown := v }
    (List.range 4).foldl (fun c k => c.deliverHeld e k) c1

/-! ## The head of a queue -/

/-- The head's issuer number for releases (R420): 8 MXE, 9 VXE, 10 and 11 DMA. -/
def engIssuer (k : Nat) : Nat := 8 + k

/-- Removing the head of queue k and releasing its entries (R52, R67). -/
def Core.popHead (c : Core) (k : Nat) : Core :=
  let g := c.eng k
  match g.q with
  | [] => c
  | h :: r =>
    let c1 := (c.trkDropAll h.trk).setEng k { g with q := r, srow := 0 }
    if k ≤ 1 then c1 else c1.setDma (k - 2) { (c1.dma (k - 2)) with headAt := none }

/-- Replacing the head of queue k. -/
def Core.setHead (c : Core) (k : Nat) (h : QEnt) : Core :=
  let g := c.eng k
  c.setEng k { g with q := h :: g.q.tail }

/-- Trying a major 0x3E operation at the head of queue k: it completes and leaves, waits, or reports a broken counter once (R327, R333, R336, R347). -/
def headCtr (e : Env) (c : Core) (k : Nat) (h : QEnt) : Core × List Emit :=
  match ctrTry e c (engIssuer k) (h.iw k) (h.ctrA k) (h.ctrB k) with
  | .done c' em => let s := settleAll e (c'.popHead k); (s.1, em ++ s.2)
  | .broken sub =>
    let g := c.eng k
    if g.told.contains sub then (c, [])
    else ((c.setEng k { g with told := g.told ++ [sub] }).notify e k { code := 0x1F, sub := 128 + sub }, [])
  | _ => (c, [])

/-- The engine runs: not parked, no park asked for, not halted, and its core out of reset. -/
def Core.engRuns (c : Core) (k : Nat) : Bool :=
  let g := c.eng k
  !c.held && !g.parked && !g.parkReq && !g.halt

/-- A halt of an engine for a refused ring address, with its record and CC notice (R261, R286). -/
def engHalt (e : Env) (c : Core) (k cause : Nat) : Core × List Emit :=
  let g := c.eng k
  let c1 := c.setEng k { g with halt := true, hcause := cause }
  (c1.notify e k { kind := .intr, code := 0x30, sub := 4 }, [e.errRec 0x04 2 k cause 0])

/-- RETRY (R261, R291): acts only on HCAUSE 1 and 2. -/
def engRetry (c : Core) (k : Nat) : Core :=
  let g := c.eng k
  if g.halt ∧ (g.hcause = 1 ∨ g.hcause = 2) then c.setEng k { g with halt := false, hcause := 0 } else c

/-- DROP: the queue is discarded with its entries, while parked (R266, R293). -/
def engDrop (e : Env) (c : Core) (k : Nat) : Core × List Emit :=
  let g := c.eng k
  let c1 := (g.q.foldl (fun c x => c.trkDropAll x.trk) c)
  settleAll e (c1.setEng k { g with q := [], halt := false, hcause := 0, srow := 0 })

/-- The staging record of n words. -/
def Eng.staging (g : Eng) (n : Nat) : List Word := (List.range n).map fun i => mget 0 g.stage i

/-- Word i of the queue entry that QIDX names, or zero beyond the fill (after Table 7-12). -/
def Eng.window (g : Eng) (i : Nat) : Word :=
  match g.q[g.qidx]? with
  | some x => x.w i
  | none => 0

/-- PUSH of a staging record with the ranges it declares: refused with PUSHERR when the queue or the tracker has no room or the instruction does not belong (R266). -/
def engPush (c : Core) (k n : Nat) (fits : List Word → Bool) (ranges : List Word → List (Bool × Nat × Nat × Bool)) : Core :=
  let g := c.eng k
  let qw := g.staging n
  let rs := ranges qw
  if qDepth k ≤ g.q.length ∨ c.trkFree < rs.length ∨ fits qw = false then c.setEng k { g with pushErr := true }
  else (c.setEng k { g with pushErr := false }).push k qw rs

end Sys2Proof.Machine
end

