-- ==== Sys2Proof/Machine/Formats.lean ====
section
/-! DEFINITION. The short formats, narrowing, unpacking, the Philox generator and the bounded functions of the vector engine (spec 06, 08 R276, R279, R280). -/

namespace Sys2Proof.Machine

/-- A short floating-point format: fraction bits and exponent field bits (Table 6-2). -/
structure Short where
  frac : Nat
  ew   : Nat
  deriving DecidableEq, Repr

def df16 : Short := ⟨8, 7⟩
def df8 : Short := ⟨3, 4⟩

def Short.bias (f : Short) : Nat := 2 ^ (f.ew - 1) - 1
def Short.emin (f : Short) : Int := 1 - (f.bias : Int)
def Short.sign (f : Short) : Nat := 2 ^ (f.frac + f.ew)
/-- The one NaN: the sign bit alone (R205). -/
def Short.nan (f : Short) : Nat := f.sign
/-- The largest magnitude's encoding. -/
def Short.maxBits (f : Short) : Nat := f.sign - 1

/-- The value of an encoding (Table 6-2). -/
def Short.dec (f : Short) (x : Nat) : FV :=
  let s := decide (x / f.sign % 2 = 1)
  let e := x / 2 ^ f.frac % 2 ^ f.ew
  let fr := x % 2 ^ f.frac
  if e = 0 then
    if fr = 0 then (if s then .nan false else .fin false 0 0)
    else .fin s fr (f.emin - f.frac)
  else .fin s (2 ^ f.frac + fr) ((e : Int) - f.bias - f.frac)

/-- Widening to binary32: exact; a NaN gives 0x7FC0_0000 (R218). -/
def Short.widen (f : Short) (x : Nat) : Nat :=
  match f.dec x with
  | .fin s m e => (b32.round .ties s m e).1
  | _ => 0x7FC00000

/-- The overflow result (R220). -/
def Short.overflow (f : Short) (s ovn : Bool) : Nat := if ovn then f.nan else (if s then f.sign else 0) + f.maxBits

/-- `narrow` of R220 from binary32 bits; `r` is the element's 16 random bits under SR, `none` under RNE. -/
def Short.narrow (f : Short) (ovn : Bool) (r : Option Nat) (x : Nat) : Nat × Flags :=
  match b32.dec x with
  | .nan _ => (f.nan, fNV)
  | .inf s => (f.overflow s ovn, fOF ||| fNX)
  | .fin s m e =>
    if m = 0 then (0, fNone)
    else
      let top := max (e + (bitLen m : Int) - 1) f.emin
      let q := top - f.frac
      -- a / 2^q as an integer part and a fraction num / 2^k
      let k := (q - e).toNat
      let whole := if q ≤ e then m * 2 ^ (e - q).toNat else m / 2 ^ k
      let num := if q ≤ e then 0 else m % 2 ^ k
      let up := match r with
        | none => decide (2 ^ k < 2 * num) || (decide (2 ^ k = 2 * num ∧ num ≠ 0) && decide (whole % 2 = 1))
        | some r => decide (65536 ≤ num * 65536 / 2 ^ k + r) && decide (num ≠ 0)
      let n := if up then whole + 1 else whole
      let nx := if num = 0 then fNone else fNX
      -- n × 2^q may have grown to 2^(frac+1), one binade higher
      let big := decide (n = 2 ^ (f.frac + 1))
      let n' := if big then 2 ^ f.frac else n
      let q' := if big then q + 1 else q
      let efield := if n' < 2 ^ f.frac then 0 else (q' + f.frac - f.emin + 1).toNat
      if n' = 0 then (0, nx ||| fUF)
      else if 2 ^ f.ew ≤ efield then (f.overflow s ovn, nx ||| fOF ||| fNX)
      else
        let uf := if num ≠ 0 ∧ efield = 0 then fUF else fNone
        ((if s then f.sign else 0) + efield * 2 ^ f.frac + n' % 2 ^ f.frac, nx ||| uf)

/-! ## DQ4 and DK4 (R209 to R212) -/

/-- Code i of a block: two to a byte, the even element low (R209, R212). -/
def nibble (bs : List Byte) (i : Nat) : Nat := (bs.getD (i / 2) 0).toNat / 16 ^ (i % 2) % 16

/-- One DQ4 element as DF16 (R210). -/
def dq4Elem (q e : Nat) : Nat × Flags :=
  let v := sextNat q 4
  let s := decide (v < 0)
  let m := v.natAbs
  let ex : Int := (e : Int) - 127
  let sgn := if s then df16.sign else 0
  if m = 0 then (0, fNone)
  else
    let top := ex + (bitLen m : Int) - 1
    -- an integer multiple of 2^-70
    let exact := decide (-70 ≤ ex) || decide (m % 2 ^ (-70 - ex).toNat = 0)
    if 64 < top then (sgn + df16.maxBits, fOF ||| fNX)
    else if !exact then (0, fUF ||| fNX)
    else if top < -62 then (sgn + (if -70 ≤ ex then m * 2 ^ (ex + 70).toNat else m / 2 ^ (-70 - ex).toNat), fNone)
    else (sgn + (top + 63).toNat * 256 + (m * 2 ^ (9 - bitLen m)) % 256, fNone)

/-- A 17-byte DQ4 block as 32 DF16 encodings with the flags it raises. -/
def dq4Block (bs : List Byte) : List Nat × Flags :=
  let e := (bs.getD 16 0).toNat
  let es := (List.range 32).map fun i => dq4Elem (nibble bs i) e
  (es.map (·.1), es.foldl (fun f x => f ||| x.2) fNone)

/-- A 16-byte DK4 row through a codebook (R212). -/
def dk4Row (cb : Nat → Nat) (bs : List Byte) : List Nat := (List.range 32).map fun i => cb (nibble bs i)

/-! ## Philox-4×32-10 (R225 to R229) -/

def hi32 (x : Nat) : Nat := x / 2 ^ 32 % 2 ^ 32
def lo32 (x : Nat) : Nat := x % 2 ^ 32

/-- n rounds of Philox; the key steps before every round but the first. -/
def philoxRounds : Nat → Nat → Nat → Nat → Nat → Nat → Nat → List Nat
  | 0, c0, c1, c2, c3, _, _ => [c0, c1, c2, c3]
  | n + 1, c0, c1, c2, c3, k0, k1 =>
    let p0 := 0xD2511F53 * c0
    let p1 := 0xCD9E8D57 * c2
    philoxRounds n (hi32 p1 ^^^ c1 ^^^ k0) (lo32 p1) (hi32 p0 ^^^ c3 ^^^ k1) (lo32 p0)
      (lo32 (k0 + 0x9E3779B9)) (lo32 (k1 + 0xBB67AE85))

/-- philox4x32_10 of an index, stream, thread and key (R225, R228). -/
def philox (index stream thread : Nat) (key : Word) : List Nat :=
  philoxRounds 10 (lo32 index) (hi32 index) (lo32 stream) (thread % 8) (fld key 0 32) (fld key 32 32)

/-- The 16 random bits of element j (R229). -/
def randBits (index stream thread : Nat) (key : Word) (j : Nat) : Nat :=
  let w := philox ((index + j / 8) % 2 ^ 64) stream thread key
  let h := j % 8
  w.getD (h / 2) 0 / 65536 ^ (h % 2) % 65536

/-! ## Quantisation (R279, R280) -/

/-- vqnt of R279: the result, NV and NX, and IOV. -/
def vqnt (bits : Nat) (s : Int) (x : Nat) : Int × Flags × Bool :=
  let hi : Int := 2 ^ (bits - 1) - 1
  let lo : Int := -(2 ^ (bits - 1))
  match b32.dec x with
  | .nan _ => (0, fNV, false)
  | .inf sg => (if sg then lo else hi, fNV, true)
  | .fin sg m e =>
    let (q, lost) := toIntegral .ties sg m (e + s)
    if hi < q then (hi, fNV, true) else if q < lo then (lo, fNV, true) else (q, if lost then fNX else fNone, false)

/-- VDQ: q × 2^s rounded once (R278, R279). -/
def vdq (rm : Rnd) (s : Int) (q : Int) : Nat × Flags := b32.round rm (decide (q < 0)) q.natAbs s

/-- VGEXP (R280). -/
def vgexp (x : Nat) : Int :=
  match b32.dec x with
  | .fin s m e => if m = 0 then -2147483648 else (FV.fin s m e).log2
  | _ => 2147483647

/-! ## The bounded functions (R276, Table 8-4) -/

/-- The encoding `cand` has a value within k ulp of (-1)^s × m × 2^e, where m itself may be off by less than 2^slack; an ulp is the spacing of binary32 values in that number's binade. The bound is met for certain, whatever the error of m. -/
def withinUlp (k slack : Nat) (s : Bool) (m : Nat) (e : Int) (cand : Nat) : Bool :=
  match b32.dec cand with
  | .fin cs cm ce =>
    let ulp := max (e + (bitLen m : Int) - 24) b32.qmin
    let lo := min e (min ce ulp)
    let a : Int := (if s then -1 else 1) * ((m * 2 ^ (e - lo).toNat : Nat) : Int)
    let b : Int := (if cs then -1 else 1) * ((cm * 2 ^ (ce - lo).toNat : Nat) : Int)
    decide ((a - b).natAbs + 2 ^ (e - lo).toNat * 2 ^ slack ≤ k * 2 ^ (ulp - lo).toNat)
  | _ => false

/-- The implementation's value when it meets the bound of Table 8-4, else the correctly rounded one. -/
def pickNear (k slack : Nat) (s : Bool) (m : Nat) (e : Int) (near : Nat) (cand : BitVec 32) : Nat :=
  if withinUlp k slack s m e cand.toNat then cand.toNat else near

/-- 2^(2^-i) for i = 1 to n, in units of 2^-128, multiplied into acc for the set bits of the fraction. -/
def exp2Frac (frac : Nat) : Nat → Nat → Nat → Nat → Nat
  | 0, _, _, acc => acc
  | n + 1, i, root, acc =>
    let root' := isqrt (root * 2 ^ 128)
    exp2Frac frac n (i + 1) root' (if frac / 2 ^ (63 - i) % 2 = 1 then acc * root' / 2 ^ 128 else acc)

/-- 2^x to within 2^-60 relatively: the integer part of x, and 2^fraction in units of 2^-128. -/
def exp2Approx (s : Bool) (m : Nat) (e : Int) : Int × Nat :=
  -- x in units of 2^-64, rounded down
  let mag := if 0 ≤ e + 64 then m * 2 ^ (e + 64).toNat else m / 2 ^ (-(e + 64)).toNat
  let x : Int := if s then -(mag : Int) else mag
  let k := x / 18446744073709551616
  let f := (x % 18446744073709551616).toNat
  (k, exp2Frac f 64 0 (2 ^ 129) (2 ^ 128))

/-- VEXP2. -/
def vexp2 (x : Nat) : Nat :=
  match b32.dec x with
  | .nan _ => 0x7FC00000
  | .inf s => if s then 0 else 0x7F800000
  | .fin s m e =>
    if m = 0 then 0x3F800000
    else
      let (k, f) := exp2Approx s m e
      if 128 ≤ k then 0x7F800000
      else if s ∧ (FV.fin s m e).log2 ≥ 0 ∧ (k < -150 ∨ (k = -150 ∧ f = 2 ^ 128)) then 0
      else
        let near := (b32.round .ties false f (k - 128)).1
        if f = 2 ^ 128 ∧ (toIntegral .zero s m e).2 = false ∧ -126 ≤ k then near
        else pickNear 1 70 false f (k - 128) near (Config.vexp2 (BitVec.ofNat 32 x))

/-- Binary digits of log2 of a value in [1, 2), in units of 2^-128. -/
def log2Digits : Nat → Nat → Nat → Nat
  | 0, _, acc => acc
  | n + 1, v, acc =>
    let q := v * v / 2 ^ 128
    if 2 ^ 129 ≤ q then log2Digits n (q / 2) (2 * acc + 1) else log2Digits n q (2 * acc)

/-- VLOG2. -/
def vlog2 (x : Nat) : Nat :=
  match b32.dec x with
  | .nan _ => 0x7FC00000
  | .inf s => if s then 0x7FC00000 else 0x7F800000
  | .fin s m e =>
    if m = 0 then 0xFF800000
    else if s then 0x7FC00000
    else
      let l := bitLen m - 1
      let ex := e + l
      let frac := log2Digits 60 (m * 2 ^ 128 / 2 ^ l) 0
      let v : Int := ex * 2 ^ 60 + frac
      let near := (b32.round .ties (decide (v < 0)) v.natAbs (-60)).1
      if m = 2 ^ l then near
      else
        let cand := (Config.vlog2 (BitVec.ofNat 32 x)).toNat
        if ex = 0 ∨ ex = -1 then
          -- absolute error at most 2^-22
          match b32.dec cand with
          | .fin cs cm ce =>
            let d : Int := (if cs then -1 else 1) * ((cm * 2 ^ (ce + 160).toNat : Nat) : Int) - v * 2 ^ 100
            if d.natAbs + 2 ^ 106 ≤ 2 ^ 138 then cand else near
          | _ => near
        else pickNear 1 6 (decide (v < 0)) v.natAbs (-60) near (Config.vlog2 (BitVec.ofNat 32 x))

/-- VRCP. -/
def vrcp (x : Nat) : Nat :=
  match b32.dec x with
  | .nan _ => 0x7FC00000
  | .inf s => b32.zero s
  | .fin s m e =>
    if m = 0 then b32.infBits s
    else
      let near := (b32.div .ties 0x3F800000 x).1
      if m = 2 ^ (bitLen m - 1) ∧ -127 ≤ -(e + bitLen m) ∧ e + bitLen m ≤ 127 then near
      -- a result of magnitude 2^128 or more has no binary32 value within the bound: the spec states none (log entry 5)
      else if near = b32.infBits s then (Config.vrcp (BitVec.ofNat 32 x)).toNat
      else pickNear 1 0 s (2 ^ 128 / m) (-128 - e) near (Config.vrcp (BitVec.ofNat 32 x))

/-- VRSQ. -/
def vrsq (x : Nat) : Nat :=
  match b32.dec x with
  | .nan _ => 0x7FC00000
  | .inf s => if s then 0x7FC00000 else 0
  | .fin s m e =>
    if m = 0 then b32.infBits s
    else if s then 0x7FC00000
    else
      let l := bitLen m - 1
      -- 1/√(m·2^e) = √(2^k / m) · 2^(-(e+k)/2), k of the parity of e
      let k : Nat := 160 + (if (e + 160) % 2 = 0 then 0 else 1)
      let r := isqrt (2 ^ k / m)
      let near := (b32.roundSticky .ties false r (-((e + k) / 2)) true).1
      if m = 2 ^ l ∧ (e + l) % 2 = 0 then (b32.round .ties false 1 (-((e + l) / 2))).1
      else pickNear 2 1 false r (-((e + k) / 2)) near (Config.vrsq (BitVec.ofNat 32 x))

end Sys2Proof.Machine
end

