-- ==== Sys2Proof/Machine/Mxe.lean ====
section
/-! DEFINITION. The matrix engine: encodings, checks and tag settings at issue, and what each command does row by row (spec 07). -/

namespace Sys2Proof.Machine

/-! ## Types, tags and tiles (Tables 7-1, 7-2) -/

def tySize (ty : Nat) : Nat := if ty = 0 ∨ ty = 3 then 2 else if ty = 4 ∨ ty = 5 then 4 else 1
def tyMaxC (ty : Nat) : Nat := if ty = 1 ∨ ty = 2 then 64 else 32
/-- A type code of the T file, or of the A file. -/
def tyIsT (ty : Nat) : Bool := decide (ty ≤ 3)
def tyIsA (ty : Nat) : Bool := decide (ty = 4 ∨ ty = 5)
def selIsT (s : Nat) : Bool := decide (s < 8)

/-- The 16-bit layout of a tag in MXE.TAG. -/
def encTag : Option Shape → Nat
  | none => 0
  | some s => 2 ^ 15 + s.ty % 8 * 2 ^ 11 + (s.c - 1) % 64 * 2 ^ 5 + (s.r - 1) % 32

def decTag (v : Nat) : Option Shape :=
  if v / 2 ^ 15 % 2 = 1 then some ⟨v / 2 ^ 11 % 8, v % 32 + 1, v / 32 % 64 + 1⟩ else none

def Mxe.tagOf (m : Mxe) (sel : Nat) : Option Shape := mget none m.tags sel
def Mxe.setTag (m : Mxe) (sel : Nat) (t : Option Shape) : Mxe := { m with tags := mset m.tags sel t }

/-- Bytes of a row of a tile's file. -/
def rowBytes (sel : Nat) : Nat := if selIsT sel then 64 else 128

/-- Element [r][c] of `size` bytes of a tile. -/
def Mxe.elem (m : Mxe) (sel size r c : Nat) : Nat := rdNat m.tiles (4096 * sel + rowBytes sel * r + size * c) size
def Mxe.setElem (m : Mxe) (sel size r c v : Nat) : Mxe :=
  { m with tiles := wrNat m.tiles (4096 * sel + rowBytes sel * r + size * c) size v }
def Mxe.rowMark (m : Mxe) (sel r : Nat) : Bool := mget false m.psn (32 * sel + r)
def Mxe.setMark (m : Mxe) (sel r : Nat) (b : Bool) : Mxe :=
  { m with psn := cset false m.psn (32 * sel + r) b, fPsn := m.fPsn || b }

/-- A tile zeroed, with its marks (R235, R256). -/
def Mxe.clear (m : Mxe) (sel : Nat) : Mxe :=
  { m with tiles := m.tiles.filter (fun p => decide (p.1 / 4096 ≠ sel)), psn := m.psn.filter fun p => decide (p.1 / 32 ≠ sel) }

/-- Element bytes that a tag takes in: byte `off` of a tile's storage lies in rows [0, R) and columns [0, C). -/
def Shape.holds (s : Option Shape) (sel off : Nat) : Bool :=
  s.any fun x => decide (off / rowBytes sel < x.r) && decide (off % rowBytes sel < tySize x.ty * x.c)

/-- Zero everywhere outside a tag, and no mark outside its rows (R235). -/
def Mxe.fit (m : Mxe) (sel : Nat) (s : Option Shape) : Mxe :=
  { m with tiles := m.tiles.filter (fun p => decide (p.1 / 4096 ≠ sel) || Shape.holds s sel (p.1 % 4096))
           psn := m.psn.filter fun p => decide (p.1 / 32 ≠ sel) || s.any fun x => decide (p.1 % 32 < x.r) }

/-! ## Cell sets and the operand cache (R257, R258) -/

/-- A write of a tile by anything but a TMMA: no cell set still holds its rows, and no cache entry stays valid for it (R257, R258). -/
def Mxe.spoil (m : Mxe) (sel : Nat) : Mxe :=
  let cell (x : CellSet) : CellSet := if x.of.any (fun p => p.1 == sel) then {} else x
  let panel (x : Panel) : Panel := if x.of = some sel then {} else x
  { m with cell0 := cell m.cell0, cell1 := cell m.cell1, panel0 := panel m.panel0, panel1 := panel m.panel1 }

/-- The bytes of a tile from `lo` up to `hi`. -/
def Mxe.slice (m : Mxe) (sel lo hi : Nat) : Mem :=
  m.tiles.filter fun p => decide (p.1 / 4096 = sel ∧ lo ≤ p.1 % 4096 ∧ p.1 % 4096 < hi)

/-- A pass has run and its rows are drained: the set that held them is reused, else the sets alternate; it now holds them (R257). -/
def Mxe.usePass (m : Mxe) (sel q : Nat) : Mxe :=
  let x : CellSet := { of := some (sel, q), data := m.slice sel (2048 * q) (2048 * (q + 1)) }
  let second := if m.cell0.of = some (sel, q) then false else if m.cell1.of = some (sel, q) then true else !m.cellLast
  if second then { m with cell1 := x, cellLast := true } else { m with cell0 := x, cellLast := false }

/-- The panel of a TMMA: the entry valid for Tb, else the one that the most recent TMMA did not use is loaded (R258). -/
def Mxe.usePanel (m : Mxe) (tb : Nat) : Mxe :=
  let x : Panel := { of := some tb, data := m.slice tb 0 2048 }
  if m.panel0.of = some tb then { m with panelLast := false }
  else if m.panel1.of = some tb then { m with panelLast := true }
  else if m.panelLast then { m with panel0 := x, panelLast := false } else { m with panel1 := x, panelLast := true }

def Mxe.orFlags (m : Mxe) (f : Flags) : Mxe := { m with flags := m.flags ||| f }

/-! ## Encodings (Table 7-3) -/

def encTmma (ad ta tb m1 n1 k1 : Nat) (z kh u : Bool) : Nat :=
  0x30 * 2 ^ 26 + ad * 2 ^ 24 + ta * 2 ^ 21 + tb * 2 ^ 18 + m1 * 2 ^ 13 + n1 * 2 ^ 8 + k1 * 8 + b2n z * 4 + b2n kh * 2 + b2n u
def encTload (dst ra rb mode r1 ty cb : Nat) : Nat :=
  0x31 * 2 ^ 26 + dst * 2 ^ 22 + ra * 2 ^ 17 + rb * 2 ^ 12 + mode * 2 ^ 10 + r1 * 2 ^ 5 + ty * 4 + cb
def encTstore (src ra rb fmt r1 : Nat) (sr ovn : Bool) : Nat :=
  0x32 * 2 ^ 26 + src * 2 ^ 22 + ra * 2 ^ 17 + rb * 2 ^ 12 + fmt * 2 ^ 9 + b2n sr * 2 ^ 8 + b2n ovn * 2 ^ 7 + r1 * 4
def encTmov (dst src cv : Nat) (sr ovn h : Bool) : Nat :=
  0x33 * 2 ^ 26 + dst * 2 ^ 22 + src * 2 ^ 18 + cv * 2 ^ 15 + b2n sr * 2 ^ 14 + b2n ovn * 2 ^ 13 + b2n h * 2 ^ 12
def encTmovv (tile v row : Nat) (dir : Bool) : Nat :=
  0x34 * 2 ^ 26 + tile * 2 ^ 22 + v * 2 ^ 17 + row * 2 ^ 12 + b2n dir * 2 ^ 11
def encTinit (tile r1 c1 ty : Nat) : Nat := 0x35 * 2 ^ 26 + tile * 2 ^ 22 + r1 * 2 ^ 17 + c1 * 2 ^ 11 + ty * 2 ^ 8
def encTrel (tile : Nat) : Nat := 0x36 * 2 ^ 26 + tile * 2 ^ 22

/-- Bits [lo + n - 1 : lo] of an instruction word. -/
def nf (iw lo n : Nat) : Nat := iw / 2 ^ lo % 2 ^ n

/-- The major opcode. -/
def major (iw : Nat) : Nat := iw / 2 ^ 26 % 64

/-- An MXE word that is illegal: no MXE here (R41), a selector of 12 to 15, or a field that its row refuses (R97, R239, R248, R250, R252). -/
def mxeIllegal (vcore : Bool) (iw : Nat) : Bool :=
  vcore ||
  match major iw with
  | 0x30 => false
  | 0x31 => decide (11 < nf iw 22 4) || (decide (nf iw 0 2 ≠ 0) && !(nf iw 10 2 == 3 && nf iw 2 3 == 1))
  | 0x32 =>
    let fmt := nf iw 9 3
    decide (11 < nf iw 22 4) || decide (5 < fmt) || (decide (nf iw 7 2 ≠ 0) && fmt != 1 && fmt != 2) || decide (nf iw 0 2 ≠ 0)
  | 0x33 =>
    let cv := nf iw 15 3
    decide (11 < nf iw 22 4) || decide (11 < nf iw 18 4) || decide (5 < cv) || (decide (nf iw 13 2 ≠ 0) && cv != 1 && cv != 2)
      || (decide (nf iw 12 1 ≠ 0) && decide (cv ≤ 1)) || decide (nf iw 0 12 ≠ 0)
  | 0x34 => decide (11 < nf iw 22 4) || decide (nf iw 0 11 ≠ 0)
  | 0x35 => decide (11 < nf iw 22 4) || decide (nf iw 0 8 ≠ 0)
  | 0x36 => decide (11 < nf iw 22 4) || decide (nf iw 0 22 ≠ 0)
  | _ => true

/-! ## Checks and settings at issue (R240 to R256) -/

def evEmpty (sel : Nat) : Ev := { code := 0x1C, sub := sel }
def evType (sub : Nat) : Ev := { code := 0x1B, sub := sub }
def evShape (sub : Nat) : Ev := { code := 0x1A, sub := sub }

def needTile (m : Mxe) (sel : Nat) : Except Ev Shape :=
  match m.tagOf sel with
  | some s => .ok s
  | none => .error (evEmpty sel)

/-- The result type of operand types, with U (Table 7-5). -/
def tmmaType (ta tb : Nat) : Option Nat :=
  if ta ≤ 1 ∧ tb ≤ 1 then some 4 else if (ta = 2 ∨ ta = 3) ∧ tb = 2 then some 5 else none

/-- What a command has checked and captured: the engine after its settings, and its record's tags and SR fields. -/
structure MxeIssue where
  mxe : Mxe
  t1  : Option Shape := none
  t2  : Option Shape := none
  t3  : Option Shape := none
  /-- elements converted with SR, for MXE.SRI (R251) -/
  sr  : Option Nat := none

def checkTmma (m : Mxe) (iw : Nat) : Except Ev MxeIssue := do
  let ad := 8 + nf iw 24 2
  let ta := nf iw 21 3
  let tb := nf iw 18 3
  let M := nf iw 13 5 + 1
  let N := nf iw 8 5 + 1
  let K := nf iw 3 5 + 1
  let z := nf iw 2 1 = 1
  let kh := nf iw 1 1
  let u := nf iw 0 1 = 1
  let a ← needTile m ta
  let b ← needTile m tb
  let d := m.tagOf ad
  if d.isNone ∧ ¬z then .error (evEmpty ad)
  else match tmmaType a.ty b.ty with
  | none => .error (evType 1)
  | some rt =>
    if d.any (fun x => x.ty != rt) then .error (evType 2)
    else if u ∧ rt = 4 then .error (evType 3)
    else if a.r < M then .error (evShape 1)
    else if a.c < K + 32 * kh then .error (evShape 2)
    else if b.r < K then .error (evShape 3)
    else if b.c < N then .error (evShape 4)
    else if d.any (fun x => decide (x.r < M) || decide (x.c < N)) then .error (evShape 5)
    else
      let d' : Shape := d.getD ⟨rt, 32, 32⟩
      return { mxe := m.setTag ad (some d'), t1 := some d', t2 := some a, t3 := some b }

def checkTload (m : Mxe) (iw C : Nat) : Except Ev MxeIssue :=
  let dst := nf iw 22 4
  let mode := nf iw 10 2
  let R := nf iw 5 5 + 1
  let ty := nf iw 2 3
  let fileOk := if mode ≤ 1 then (if selIsT dst then tyIsT ty else tyIsA ty)
    else if mode = 2 then selIsT dst && (ty == 0 || ty == 3) else selIsT dst && decide (ty ≤ 1)
  let cOk := if mode = 0 then decide (C ≤ tyMaxC ty)
    else if mode = 1 then decide (C ≤ tyMaxC ty) && decide (C * tySize ty % 4 = 0) else if mode = 2 then decide (C ≤ 32) else decide (C = 32)
  if !fileOk then .error (evType 4)
  else if !cOk then .error (evShape 6)
  else
    let s : Shape := if mode = 3 then ⟨0, R, 32⟩ else ⟨ty, R, C⟩
    .ok { mxe := m.setTag dst (some s), t1 := some s }

/-- The format of a TSTORE fits its source (Table 7-7). -/
def tstoreFits (fmt sel ty : Nat) : Bool :=
  if fmt ≤ 2 then !selIsT sel && ty == 4 else if fmt ≤ 4 then !selIsT sel && ty == 5 else selIsT sel

/-- Bytes that a TSTORE writes per element (Table 7-7). -/
def tstoreSize (fmt ty : Nat) : Nat := if fmt = 0 ∨ fmt = 3 then 4 else if fmt = 1 then 2 else if fmt = 5 then tySize ty else 1

def checkTstore (m : Mxe) (iw C : Nat) : Except Ev MxeIssue := do
  let src := nf iw 22 4
  let fmt := nf iw 9 3
  let R := nf iw 2 5 + 1
  let s ← needTile m src
  if !tstoreFits fmt src s.ty then .error (evType 5)
  else if s.r < R ∨ s.c < C then .error (evShape 7)
  else return { mxe := m, t1 := some s, sr := if nf iw 8 1 = 1 then some (R * C) else none }

def checkTmov (m : Mxe) (iw : Nat) : Except Ev MxeIssue := do
  let dst := nf iw 22 4
  let src := nf iw 18 4
  let cv := nf iw 15 3
  let h := nf iw 12 1 = 1
  let s ← needTile m src
  let filesOk := if cv = 0 then selIsT src == selIsT dst
    else if cv ≤ 3 then !selIsT src && selIsT dst else selIsT src && !selIsT dst
  let typeOk := if cv = 0 then true else if cv ≤ 2 then s.ty == 4 else if cv = 3 then s.ty == 5
    else if cv = 4 then decide (s.ty ≤ 1) else s.ty == 2 || s.ty == 3
  let sr := if nf iw 14 1 = 1 then some (s.r * s.c) else none
  if !filesOk then .error (evType 4)
  else if !typeOk then .error (evType 5)
  else if cv = 2 ∨ cv = 3 then
    let ty := if cv = 2 then 1 else 2
    if h then
      match m.tagOf dst with
      | some d =>
        if d.ty = ty ∧ d.r = s.r ∧ d.c = 32 then
          let d' : Shape := ⟨ty, s.r, 32 + s.c⟩
          return { mxe := m.setTag dst (some d'), t1 := some d', t2 := some s, sr := sr }
        else .error (evShape 8)
      | none => .error (evShape 8)
    else
      let d' : Shape := ⟨ty, s.r, s.c⟩
      return { mxe := m.setTag dst (some d'), t1 := some d', t2 := some s, sr := sr }
  else if cv = 4 ∨ cv = 5 then
    if h ∧ ¬((s.ty = 1 ∨ s.ty = 2) ∧ 32 < s.c) then .error (evShape 7)
    else
      let d' : Shape := ⟨cv, s.r, if h then s.c - 32 else min s.c 32⟩
      return { mxe := m.setTag dst (some d'), t1 := some d', t2 := some s }
  else
    let d' : Shape := if cv = 1 then ⟨0, s.r, s.c⟩ else s
    return { mxe := m.setTag dst (some d'), t1 := some d', t2 := some s, sr := sr }

def checkTmovv (m : Mxe) (iw : Nat) : Except Ev MxeIssue := do
  let sel := nf iw 22 4
  let row := nf iw 12 5
  let s ← needTile m sel
  if (if selIsT sel then s.r ≤ 2 * row + 1 else s.r ≤ row) then .error (evShape 7) else return { mxe := m, t1 := some s }

def checkTinit (m : Mxe) (iw : Nat) : Except Ev MxeIssue :=
  let sel := nf iw 22 4
  let ty := nf iw 8 3
  let C := nf iw 11 6 + 1
  if !(if selIsT sel then tyIsT ty else tyIsA ty) then .error (evType 4)
  else if tyMaxC ty < C then .error (evShape 6)
  else
    let s : Shape := ⟨ty, nf iw 17 5 + 1, C⟩
    .ok { mxe := m.setTag sel (some s), t1 := some s }

/-- The tag checks and settings of a word (R236, R241): `C` is the count per row that rb gives. -/
def mxeCheck (m : Mxe) (iw C : Nat) : Except Ev MxeIssue :=
  match major iw with
  | 0x30 => checkTmma m iw
  | 0x31 => checkTload m iw C
  | 0x32 => checkTstore m iw C
  | 0x33 => checkTmov m iw
  | 0x34 => checkTmovv m iw
  | 0x35 => checkTinit m iw
  | _ => .ok { mxe := m.setTag (nf iw 22 4) none }

/-- The extent of a TLOAD or TSTORE from address a at pitch p with C elements a row (R240, Table 7-6). -/
def mxeExtent (m : Mxe) (iw C : Nat) (a p : Int) : Int × Nat :=
  if major iw = 0x31 then
    let mode := nf iw 10 2
    let R := nf iw 5 5 + 1
    let sz := tySize (nf iw 2 3)
    if mode = 0 then pitchExtent a p R (sz * C)
    else if mode = 1 then pitchExtent a p ((C * sz + 3) / 4) (4 * R)
    else if mode = 2 then pitchExtent a p C (2 * R)
    else pitchExtent a p R (if nf iw 2 3 = 1 then 16 else 17)
  else
    let ty := ((m.tagOf (nf iw 22 4)).map Shape.ty).getD 0
    pitchExtent a p (nf iw 2 5 + 1) (C * tstoreSize (nf iw 9 3) ty)

/-- The tracker range of an engine's scratchpad command: its bytes, or the whole ring (R199). -/
def wideRange (c : Core) (x : WideAddr) (ext : Int × Nat) (wr : Bool) : Bool × Nat × Nat × Bool :=
  if x.ring then
    let r := c.ringAt x.idx
    (true, r.base * 128, r.size * 128, wr)
  else (true, ext.1.toNat, ext.2, wr)

/-- Alignment and bounds of an engine's scratchpad command (R240, R284). -/
def wideCheck (x : WideAddr) (p : Int) (aligned : Bool) (ext : Int × Nat) (wr : Bool) : Except Ev Unit :=
  if aligned ∧ (x.a % 4 ≠ 0 ∨ p % 4 ≠ 0) then .error (evAlign (iWord x.a))
  else if x.ring then (if p < 0 then .error (evBounds (iWord x.a)) else .ok ())
  else if !((if wr then ptrW x.ptr else ptrR x.ptr) && ptrCovers x.ptr ext.1 ext.2) then .error (evBounds (iWord ext.1))
  else .ok ()

/-- Issuing an MXE word (R239 to R256): operands, alignment and bounds, ownership, tile checks, then the queue. -/
def opMxe (iw : Nat) : Body := fun e c t =>
  if c.ownerFull e t 0 then .ok (c, .wait .queueFull (.queue iw), [])
  else
    let th := c.thread t
    let done (x : Option WideAddr) (rb : Word) (ranges : List (Bool × Nat × Nat × Bool)) : Res := do
      needOwner e c t 0
      let k ← mxeCheck c.mxe iw (fld rb 32 7 + 1)
      let qw0 : Word := pack [(iw, 0, 32), (encTag k.t1, 32, 16), (encTag k.t2, 48, 16)]
      let qw1 : Word := pack [((x.map WideAddr.field).getD 0, 0, 24), (if k.sr.isSome then c.mxe.srs.toNat else 0, 32, 32)]
      let qw2 : Word := pack [(fld rb 0 39, 0, 39), (encTag k.t3, 48, 16)]
      let qw3 : Word := if k.sr.isSome then c.mxe.sri else 0
      let sri : Word := c.mxe.sri + BitVec.ofNat 64 ((k.sr.getD 0 + 7) / 8)
      match enqueue { c with mxe := { k.mxe with sri := sri } } 0 [qw0, qw1, qw2, qw3] ranges (.queue iw) with
      | .ok (c', .seq, em) => .ok (c', .seq, em)
      | .ok (_, ctl, em) => .ok (c, ctl, em)
      | .error ev => .error ev
    if major iw = 0x31 ∨ major iw = 0x32 then do
      let x ← wideOperand (th.reg (nf iw 17 5))
      let rb ← needInt (th.reg (nf iw 12 5))
      let p := sextNat (fld rb 0 32) 32
      let wr := decide (major iw = 0x32)
      let ext := mxeExtent c.mxe iw (fld rb 32 7 + 1) x.a p
      wideCheck x p (!(major iw == 0x31 && nf iw 10 2 == 3)) ext wr
      done (some x) rb [wideRange c x ext wr]
    else done none 0 []

/-! ## What a command does when it runs (R237, R244 to R256, R267) -/

/-- Captured tags of an entry. -/
def QEnt.tag1 (h : QEnt) : Option Shape := decTag (fld (h.w 0) 32 16)
def QEnt.tag2 (h : QEnt) : Option Shape := decTag (fld (h.w 0) 48 16)
def QEnt.tag3 (h : QEnt) : Option Shape := decTag (fld (h.w 2) 48 16)
def QEnt.pitch (h : QEnt) : Int := sextNat (fld (h.w 2) 0 32) 32
def QEnt.cols (h : QEnt) : Nat := fld (h.w 2) 32 7 + 1
/-- The wide-view address field of an entry, and whether it is ring-relative. -/
def QEnt.wide (h : QEnt) : Nat := fld (h.w 1) 0 24
def QEnt.isRing (h : QEnt) : Bool := isRingForm h.wide

/-- The scratchpad byte at an offset from an entry's address. -/
def byteOf (c : Core) (h : QEnt) (off : Int) : Nat :=
  if h.isRing then ringByte (c.ringAt (ringIdx h.wide)) h.first off.toNat else ((h.wide : Int) + off).toNat

/-- n bytes at an offset from an entry's address, and whether one lies in a POISON word. -/
def wideBytes (c : Core) (h : QEnt) (off : Int) (n : Nat) : List Byte × Bool :=
  let as := (List.range n).map fun i => byteOf c h (off + i)
  (as.map (rdByte c.spad.bytes), as.any c.spad.poisonAt)

/-- An integer cut to a signed range, and whether it was cut (R224, R246). -/
def satTo (bits : Nat) (v : Int) : Int × Bool :=
  let hi : Int := 2 ^ (bits - 1) - 1
  let lo : Int := -(2 ^ (bits - 1))
  if hi < v then (hi, true) else if v < lo then (lo, true) else (v, false)

def natOfInt (bits : Nat) (v : Int) : Nat := (v % 2 ^ bits).toNat

/-- fma_rne of R245: a product of magnitude 2^128 or more is an infinity with OF and NX, whatever acc is. -/
def mxeFma (a b acc : Nat) : Nat × Flags :=
  match b32.dec a, b32.dec b with
  | .fin s1 m1 e1, .fin s2 m2 e2 =>
    if m1 * m2 ≠ 0 ∧ 128 ≤ e1 + e2 + (bitLen (m1 * m2) : Int) - 1 then
      let r := b32.add .ties (b32.infBits (s1 != s2)) acc
      (r.1, r.2 ||| fOF ||| fNX)
    else b32.fma .ties false false a b acc
  | _, _ => b32.fma .ties false false a b acc

/-- A float tile element as binary32 (R218). -/
def tileF32 (ty v : Nat) : Nat := if ty = 0 then df16.widen v else df8.widen v

/-- An integer tile element, unsigned when U says so (Table 7-5). -/
def tileInt (ty v : Nat) (u : Bool) : Int := if u then v else sextNat v (8 * tySize ty)

/-- One element of a TMMA: ascending k (R244). -/
def tmmaElem (m : Mxe) (ta tb tya tyb off : Nat) (u float : Bool) (i j : Nat) : Nat → Nat → Nat → Flags → Bool → Nat × Flags × Bool
  | 0, _, acc, f, iov => (acc, f, iov)
  | n + 1, k, acc, f, iov =>
    let av := m.elem ta (tySize tya) i (k + off)
    let bv := m.elem tb (tySize tyb) k j
    if float then
      let r := mxeFma (tileF32 tya av) (tileF32 tyb bv) acc
      tmmaElem m ta tb tya tyb off u float i j n (k + 1) r.1 (f ||| r.2) iov
    else
      let r := satTo 32 (sextNat acc 32 + tileInt tya av u * tileInt tyb bv false)
      tmmaElem m ta tb tya tyb off u float i j n (k + 1) (natOfInt 32 r.1) f (iov || r.2)

/-- Row i of a TMMA (R244 to R247). -/
def tmmaRow (m : Mxe) (h : QEnt) (i : Nat) : Mxe :=
  let iw := h.iw 0
  let ad := 8 + nf iw 24 2
  let ta := nf iw 21 3
  let tb := nf iw 18 3
  let N := nf iw 8 5 + 1
  let K := nf iw 3 5 + 1
  let z := nf iw 2 1 = 1
  let off := if nf iw 1 1 = 1 then 32 else 0
  let u := nf iw 0 1 = 1
  let tya := ((h.tag2).map Shape.ty).getD 0
  let tyb := ((h.tag3).map Shape.ty).getD 0
  let float := ((h.tag1).map Shape.ty).getD 4 == 4
  let m1 := (List.range N).foldl (fun acc j =>
    let a0 := if z then 0 else acc.elem ad 4 i j
    let r := tmmaElem m ta tb tya tyb off u float i j K 0 a0 fNone false
    { (acc.setElem ad 4 i j r.1).orFlags r.2.1 with fIov := acc.fIov || r.2.2 }) m
  if m.rowMark ta i || (List.range K).any (fun k => m.rowMark tb k) then m1.setMark ad i true else m1

/-- The pass of a TMMA that ends at row i has drained: after row 15 and after the last one (R257). -/
def tmmaDrain (m : Mxe) (h : QEnt) (i : Nat) : Mxe :=
  let iw := h.iw 0
  if i % 16 = 15 ∨ i = nf iw 13 5 then (m.usePanel (nf iw 18 3)).usePass (8 + nf iw 24 2) (i / 16) else m

/-- Row r of a TLOAD (Table 7-6, R248, R249), from the codebook that it captured; the tile is zeroed before its first row, and holds zero outside its tag from the first row that runs (R235). -/
def tloadRow (c : Core) (h : QEnt) (r : Nat) : Mxe :=
  let iw := h.iw 0
  let dst := nf iw 22 4
  let mode := nf iw 10 2
  let ty := nf iw 2 3
  let C := h.cols
  let sz := tySize ty
  let p := h.pitch
  let m0 := (if r = 0 then c.mxe.clear dst else c.mxe.fit dst h.tag1).spoil dst
  let base := 4096 * dst + rowBytes dst * r
  if mode = 0 then
    let b := wideBytes c h (p * r) (sz * C)
    { m0 with tiles := wrBytes m0.tiles base b.1 }.setMark dst r b.2
  else if mode = 1 then
    let gs : List (List Byte × Bool) := (List.range (C * sz / 4)).map fun g => wideBytes c h (p * g + 4 * r) 4
    { m0 with tiles := wrBytes m0.tiles base (List.flatMap (fun x : List Byte × Bool => x.1) gs) }.setMark dst r (List.any gs (fun x : List Byte × Bool => x.2))
  else if mode = 2 then
    let es : List (List Byte × Bool) := (List.range C).map fun k => wideBytes c h (p * k + 2 * r) 2
    { m0 with tiles := wrBytes m0.tiles base (List.flatMap (fun x : List Byte × Bool => x.1) es) }.setMark dst r (List.any es (fun x : List Byte × Bool => x.2))
  else if ty = 1 then
    let b := wideBytes c h (p * r) 16
    let cb := nf iw 0 2
    let entry (k : Nat) : Nat := fld (mget 0 h.cb (4 * cb + k / 4)) (16 * (k % 4)) 16
    { m0 with tiles := wrBytes m0.tiles base ((dk4Row entry b.1).flatMap (leBytes 2)) }.setMark dst r b.2
  else
    let b := wideBytes c h (p * r) 17
    let x := dq4Block b.1
    ({ m0 with tiles := wrBytes m0.tiles base (x.1.flatMap (leBytes 2)) }.setMark dst r b.2).orFlags x.2

/-- The random bits of element j of an SR command, with the key that it captured and the owner's thread number (R227, R228, R251). -/
def srBits (e : Env) (c : Core) (h : QEnt) (j : Nat) : Nat :=
  randBits (h.w 3).toNat (fld (h.w 1) 32 32) ((c.owner e 0).getD 0) h.key j

/-- One element of a TSTORE or of a narrowing TMOV: its value, flags and saturation (Table 7-7, R220, R224). -/
def narrowElem (fmt : Nat) (ovn : Bool) (r : Option Nat) (v : Nat) : Nat × Flags × Bool :=
  if fmt = 1 then let x := df16.narrow ovn r v; (x.1, x.2, false)
  else if fmt = 2 then let x := df8.narrow ovn r v; (x.1, x.2, false)
  else if fmt = 4 then let x := satTo 8 (sextNat v 32); (natOfInt 8 x.1, fNone, x.2)
  else (v, fNone, false)

/-- The bytes of row r of a TSTORE, the flags and saturation it raises. -/
def tstoreBytes (e : Env) (c : Core) (h : QEnt) (r : Nat) : List Byte × Flags × Bool :=
  let iw := h.iw 0
  let src := nf iw 22 4
  let fmt := nf iw 9 3
  let ty := ((h.tag1).map Shape.ty).getD 0
  let C := h.cols
  let es := (List.range C).map fun k =>
    narrowElem fmt (nf iw 7 1 = 1) (if nf iw 8 1 = 1 then some (srBits e c h (r * C + k)) else none) (c.mxe.elem src (tySize ty) r k)
  (es.flatMap fun x => leBytes (tstoreSize fmt ty) x.1, es.foldl (fun f x => f ||| x.2.1) fNone, es.any fun x => x.2.2)

/-- Writing bytes one by one at an entry's address, each word POISON where `pz` says so. -/
def wideScatter (c : Core) (h : QEnt) (off : Int) (bs : List Byte) (pz : Nat → Bool) : Spad :=
  (List.range bs.length).foldl (fun s (i : Nat) => s.wideWrite (byteOf c h (off + (i : Int))) [bs.getD i 0] pz) c.spad

/-- Row r of a TSTORE (R250): a word that an earlier marked row of the command has written stays POISON. -/
def tstoreRow (e : Env) (c : Core) (h : QEnt) (r : Nat) : Core :=
  let iw := h.iw 0
  let src := nf iw 22 4
  let x := tstoreBytes e c h r
  let n := x.1.length
  let marked := (List.range (r + 1)).filter fun q => c.mxe.rowMark src q
  let words := marked.flatMap fun q => (List.range n).map fun i => byteOf c h (h.pitch * q + i) / 8
  let sp := wideScatter c h (h.pitch * r) x.1 fun w => words.contains w
  { c with spad := sp, mxe := { c.mxe.orFlags x.2.1 with fIov := c.mxe.fIov || x.2.2 } }

/-- Row r of a TMOV (R252, Table 7-8): the destination is zeroed before its first row but for a merge, and holds zero outside its tag (R235). -/
def tmovRow (e : Env) (c : Core) (h : QEnt) (r : Nat) : Mxe :=
  let iw := h.iw 0
  let dst := nf iw 22 4
  let src := nf iw 18 4
  let cv := nf iw 15 3
  let hi := nf iw 12 1 = 1
  let m := c.mxe
  let s := (h.tag2).getD ⟨0, 1, 1⟩
  if cv = 0 ∧ dst = src then m
  else
    let keep := (cv = 2 ∨ cv = 3) ∧ hi
    let m0 := (if r = 0 ∧ ¬keep then m.clear dst else m.fit dst h.tag1).spoil dst
    let cols := if cv = 4 ∨ cv = 5 then (if hi then s.c - 32 else min s.c 32) else s.c
    let from0 := if (cv = 4 ∨ cv = 5) ∧ hi then 32 else 0
    let to0 := if keep then 32 else 0
    let outSz := if cv = 0 then tySize s.ty else if cv = 1 then 2 else if cv ≤ 3 then 1 else 4
    let one (k : Nat) : Nat × Flags × Bool :=
      let v := m.elem src (tySize s.ty) r (k + from0)
      if cv = 0 then (v, fNone, false)
      else if cv ≤ 3 then
        narrowElem (if cv = 3 then 4 else cv) (nf iw 13 1 = 1) (if nf iw 14 1 = 1 then some (srBits e c h (r * s.c + k)) else none) v
      else if cv = 4 then (tileF32 s.ty v, fNone, false)
      else (natOfInt 32 (sextNat v (8 * tySize s.ty)), fNone, false)
    let m1 := (List.range cols).foldl (fun a k =>
      let x := one k
      { (a.setElem dst outSz r (k + to0) x.1).orFlags x.2.1 with fIov := a.fIov || x.2.2 }) m0
    if m.rowMark src r || !keep then m1.setMark dst r (m.rowMark src r) else m1

/-! ## V registers (shared with the vector engine) -/

def Vxe.regBytes (v : Vxe) (r : Nat) : List Byte := rdBytes v.v (128 * r) 128
def Vxe.mark (v : Vxe) (r w : Nat) : Bool := mget false v.psn (16 * r + w)
def Vxe.setMark (v : Vxe) (r w : Nat) (b : Bool) : Vxe :=
  { v with psn := cset false v.psn (16 * r + w) b, fPsn := v.fPsn || b }
def Vxe.setBytes (v : Vxe) (r : Nat) (bs : List Byte) : Vxe := { v with v := wrBytes v.v (128 * r) bs }

/-- TMOVV, whole (R253, R287); elements outside the captured tag read and stay zero (R235). -/
def tmovvAll (c : Core) (h : QEnt) : Core :=
  let iw := h.iw 0
  let sel := nf iw 22 4
  let v := nf iw 17 5
  let row := nf iw 12 5
  let s := (h.tag1).getD ⟨0, 1, 1⟩
  let n := tySize s.ty * s.c
  -- (tile row, first byte in the register, bytes per row)
  let parts := if selIsT sel then [(2 * row, 0, 64), (2 * row + 1, 64, 64)] else [(row, 0, 128)]
  if nf iw 11 1 = 1 then
    parts.foldl (fun c p =>
      let bs := (rdBytes c.mxe.tiles (4096 * sel + rowBytes sel * p.1) p.2.2).take n ++ List.replicate (p.2.2 - n) 0
      let vx := { c.vxe with v := wrBytes c.vxe.v (128 * v + p.2.1) bs }
      let mk := c.mxe.rowMark sel p.1
      { c with vxe := (List.range (p.2.2 / 8)).foldl (fun x w => x.setMark v (p.2.1 / 8 + w) mk) vx }) c
  else
    parts.foldl (fun c p =>
      let bs := (rdBytes c.vxe.v (128 * v + p.2.1) p.2.2).take n
      let m0 := (c.mxe.fit sel h.tag1).spoil sel
      let m := { m0 with tiles := wrBytes m0.tiles (4096 * sel + rowBytes sel * p.1) bs }
      let mk := (List.range (p.2.2 / 8)).any fun w => c.vxe.mark v (p.2.1 / 8 + w)
      { c with mxe := m.setMark sel p.1 mk }) c

/-- Rows of a command (R264): the tile rows of a TMMA, TLOAD or TSTORE, the source rows of a TMOV, 1 for any other. -/
def mxeRows (h : QEnt) : Nat :=
  let iw := h.iw 0
  match major iw with
  | 0x30 => nf iw 13 5 + 1
  | 0x31 => nf iw 5 5 + 1
  | 0x32 => nf iw 2 5 + 1
  | 0x33 => ((h.tag2).map Shape.r).getD 1
  | _ => 1

/-- Where a head starts from MXE.SROW: a TMMA at the row rounded down to 0 or 16 (R264). -/
def mxeFrom (h : QEnt) (srow : Nat) : Nat := if major (h.iw 0) = 0x30 then srow / 16 * 16 else srow

/-- The rows between the boundaries at which a command may park: a pass of a TMMA, a pair of rows of a transposed TLOAD, one row of another TLOAD or TSTORE; none for a command that completes (Table 7-11). -/
def mxeParkStep (h : QEnt) : Option Nat :=
  let iw := h.iw 0
  match major iw with
  | 0x30 => some 16
  | 0x31 => some (if nf iw 10 2 = 2 then 2 else 1)
  | 0x32 => some 1
  | _ => none

/-- Row r of the head command. -/
def mxeRow (e : Env) (c : Core) (h : QEnt) (r : Nat) : Core :=
  match major (h.iw 0) with
  | 0x30 => { c with mxe := tmmaDrain (tmmaRow c.mxe h r) h r }
  | 0x31 => { c with mxe := tloadRow c h r }
  | 0x32 => tstoreRow e c h r
  | 0x33 => { c with mxe := tmovRow e c h r }
  | 0x34 => tmovvAll c h
  | _ => let sel := nf (h.iw 0) 22 4; { c with mxe := (c.mxe.clear sel).spoil sel }

/-- Rows [lo, hi) of the head command. -/
def mxeRun (e : Env) (c : Core) (h : QEnt) (lo hi : Nat) : Core :=
  (List.range (hi - lo)).foldl (fun c i => mxeRow e c h (lo + i)) c

/-! ## Interlocks (R254, R259, Table 7-9) -/

/-- Tiles that an MXE word reads, and tiles that it writes or releases. -/
def mxeReads (iw : Nat) : List Nat :=
  match major iw with
  | 0x30 => [nf iw 21 3, nf iw 18 3, 8 + nf iw 24 2]
  | 0x32 => [nf iw 22 4]
  | 0x33 => [nf iw 18 4]
  | 0x34 => [nf iw 22 4]
  | _ => []
def mxeWrites (iw : Nat) : List Nat :=
  match major iw with
  | 0x30 => [8 + nf iw 24 2]
  | 0x31 => [nf iw 22 4]
  | 0x33 => [nf iw 22 4]
  | 0x34 => [nf iw 22 4]
  | 0x35 => [nf iw 22 4]
  | 0x36 => [nf iw 22 4]
  | _ => []

/-- The V register that a TMOVV names. -/
def tmovvReg (iw : Nat) : Option Nat := if major iw = 0x34 then some (nf iw 17 5) else none

/-- Two MXE commands in execution do not meet in a tile (Table 7-9). -/
def mxeApart (a b : Nat) : Bool :=
  (mxeWrites a).all (fun t => !(mxeReads b).contains t && !(mxeWrites b).contains t)
    && (mxeReads a).all fun t => !(mxeWrites b).contains t

end Sys2Proof.Machine
end

