-- ==== Sys2Proof/Machine/Vxe.lean ====
section
/-! DEFINITION. The vector engine: encodings, issue, what each command computes, IEEE traps and row reductions (spec 08). -/

namespace Sys2Proof.Machine

/-! ## Encodings (Table 8-2) -/

def encV38 (vd va vb rm fn : Nat) : Nat := 0x38 * 2 ^ 26 + vd * 2 ^ 21 + va * 2 ^ 16 + vb * 2 ^ 11 + rm * 2 ^ 8 + fn
def encV39 (vd va vb vc rm fn : Nat) : Nat :=
  0x39 * 2 ^ 26 + vd * 2 ^ 21 + va * 2 ^ 16 + vb * 2 ^ 11 + vc * 2 ^ 6 + rm * 2 ^ 3 + fn
def encV3A (vd va vb w fn : Nat) : Nat := 0x3A * 2 ^ 26 + vd * 2 ^ 21 + va * 2 ^ 16 + vb * 2 ^ 11 + w * 2 ^ 9 + fn
def encV3B (vd va rb cv part rm : Nat) (sr ovn : Bool) : Nat :=
  0x3B * 2 ^ 26 + vd * 2 ^ 21 + va * 2 ^ 16 + rb * 2 ^ 11 + cv * 2 ^ 7 + part * 2 ^ 5 + b2n sr * 2 ^ 4 + b2n ovn * 2 ^ 3 + rm
def encV3C (vd ra rb fn x : Nat) : Nat := 0x3C * 2 ^ 26 + vd * 2 ^ 21 + ra * 2 ^ 16 + rb * 2 ^ 11 + fn * 2 ^ 8 + x
def encV3D (vd va vb fn imm6 : Nat) : Nat := 0x3D * 2 ^ 26 + vd * 2 ^ 21 + va * 2 ^ 16 + vb * 2 ^ 11 + fn * 2 ^ 6 + imm6

/-- The rounding field of a word that rounds, if it rounds (R275, R278, R282). -/
def vxeRm (iw : Nat) : Option Nat :=
  match major iw with
  | 0x38 => if nf iw 0 8 ≤ 4 then some (nf iw 8 3) else none
  | 0x39 => some (nf iw 3 3)
  | 0x3B =>
    let cv := nf iw 7 4
    if cv = 4 ∨ cv = 5 ∨ cv = 12 ∨ cv = 13 then some (nf iw 0 3) else none
  | 0x3D => if nf iw 6 5 = 8 then some (nf iw 0 3) else none
  | _ => none

/-- How many part bits a conversion uses (R278, Table 8-6). -/
def cvParts (cv : Nat) : Nat :=
  if cv = 1 ∨ cv = 3 ∨ cv = 8 ∨ cv = 9 then 2
  else if cv = 0 ∨ cv = 2 ∨ cv = 6 ∨ cv = 7 ∨ cv = 11 ∨ cv = 13 then 1 else 0

/-- An integer fn accepts a width (Table 8-5). -/
def viWidthOk (fn w : Nat) : Bool := if fn = 4 ∨ fn = 5 then decide (w ≤ 1) else decide (w ≤ 2)

/-- A VXE word that is illegal, with VXE.MODE.RM as captured (R274, R275, R277, R278, R284, R285, Tables 8-5 to 8-8). -/
def vxeIllegal (modeRm iw : Nat) : Bool :=
  let rmBad := match vxeRm iw with
    | some 7 => decide (4 < modeRm)
    | some rm => decide (4 < rm)
    | none => false
  rmBad ||
  match major iw with
  | 0x38 =>
    let fn := nf iw 0 8
    decide (19 < fn) || decide (fn = 15) || ((vxeRm iw).isNone && decide (nf iw 8 3 ≠ 0))
      || (decide (fn = 4 ∨ fn = 12 ∨ fn = 13 ∨ 16 ≤ fn) && decide (nf iw 11 5 ≠ 0))
  | 0x39 => decide (3 < nf iw 0 3)
  | 0x3A =>
    let fn := nf iw 0 9
    decide (20 < fn) || !viWidthOk fn (nf iw 9 2) || (fn == 20 && decide (nf iw 11 5 ≠ 0))
  | 0x3B =>
    let cv := nf iw 7 4
    decide (cv = 15) || (decide (1 < cv) && decide (nf iw 3 2 ≠ 0)) || ((vxeRm iw).isNone && decide (nf iw 0 3 ≠ 0))
      || (cvParts cv == 0 && decide (nf iw 5 2 ≠ 0)) || (cvParts cv == 1 && decide (nf iw 6 1 ≠ 0))
      || (!(decide (10 ≤ cv) && decide (cv ≤ 13)) && decide (nf iw 11 5 ≠ 0))
  | 0x3C =>
    let fn := nf iw 8 3
    let x := nf iw 0 8
    decide (3 < fn) || (decide (fn ≤ 1) && decide (x ≠ 0)) || (fn == 2 && decide (nf x 5 3 ≠ 0))
      || ((fn == 0 || fn == 2) && decide (nf iw 11 5 ≠ 0)) || (fn == 3 && (decide (nf x 0 4 ≠ 0) || decide (5 < nf x 5 3)))
  | 0x3D =>
    let fn := nf iw 6 5
    let i := nf iw 0 6
    let vb := nf iw 11 5
    decide (14 < fn) || ((fn == 0 || (decide (4 ≤ fn) && decide (fn ≤ 7)) || (decide (9 ≤ fn) && decide (fn ≤ 13))) && decide (i ≠ 0))
      || ((fn == 1 || fn == 2 || (decide (8 ≤ fn) && decide (fn ≤ 14))) && decide (vb ≠ 0))
      || (fn == 2 && decide (31 < i)) || (fn == 3 && (decide (nf iw 16 5 ≠ 0) || decide (3 < i)))
      || (fn == 8 && decide (7 < i)) || (fn == 14 && (decide (nf iw 16 5 ≠ 0) || decide (1 < i)))
  | _ => true

/-! ## Issue (R273, R274, R278, R281, R284) -/

/-- Indices that an instruction consumes (R229, R283): none when it draws no random bits. -/
def vxeDraws (iw : Nat) : Option Nat :=
  if major iw = 0x3B ∧ nf iw 4 1 = 1 then some 4
  else if major iw = 0x3D ∧ nf iw 6 5 = 14 then some 8 else none

/-- A memory word that writes memory. -/
def vxeStores (iw : Nat) : Bool := nf iw 8 3 == 2

/-- The extent of a memory word from address a with the value of rb (Table 8-8). -/
def vxeExtent (iw : Nat) (a : Int) (rb : Word) : Int × Nat :=
  let p := sextNat (fld rb 0 32) 32
  match nf iw 8 3 with
  | 0 => (a, 128)
  | 1 => pitchExtent a p 32 4
  | 2 => (a, 4 * (nf iw 0 5 + 1))
  | _ => pitchExtent a p (fld rb 32 16 + 1) 128

/-- The scalar operand of a word that is not of the memory group: the scale, or the register of VSPLAT. -/
def vxeScalar (th : Thread) (iw : Nat) : Except Ev Word :=
  let cv := nf iw 7 4
  if major iw = 0x3B ∧ 10 ≤ cv ∧ cv ≤ 13 then do
    let s ← needInt (th.reg (nf iw 11 5))
    if s.toInt < -512 ∨ 511 < s.toInt then .error (evBounds (Config.xaddrNoEa s 0)) else return s
  else if major iw = 0x3D ∧ nf iw 6 5 = 3 then needTag (th.reg (nf iw 11 5)) [.int, .flt, .raw]
  else .ok 0

/-- The record of Table 8-11. -/
def vxeRecord (v : Vxe) (iw : Nat) (pc : BitVec 16) (addr : Nat) (rb : Word) : List Word :=
  let draws := (vxeDraws iw).isSome
  [pack [(iw, 0, 32), (pc.toNat, 32, 16), (v.te.toNat, 48, 5), (v.rm.toNat, 53, 3)],
   pack [(addr, 0, 24), (if draws then v.srs.toNat else 0, 32, 32)], rb, if draws then v.sri else 0]

/-- Issuing a VXE word. -/
def opVxe (iw : Nat) : Body := fun e c t =>
  if c.ownerFull e t 1 then .ok (c, .wait .queueFull (.queue iw), [])
  else
    let th := c.thread t
    let v := c.vxe
    let go (addr : Nat) (rb : Word) (ranges : List (Bool × Nat × Nat × Bool)) : Res := do
      needOwner e c t 1
      match enqueue { c with vxe := { v with sri := v.sri + BitVec.ofNat 64 ((vxeDraws iw).getD 0) } } 1
          (vxeRecord v iw th.pc addr rb) ranges (.queue iw) with
      | .ok (_, .wait cause op, em) => .ok (c, .wait cause op, em)
      | r => r
    if major iw = 0x3C then do
      let x ← wideOperand (th.reg (nf iw 16 5))
      let strided := nf iw 8 3 = 1 ∨ nf iw 8 3 = 3
      let rb ← if strided then needInt (th.reg (nf iw 11 5)) else .ok 0
      let p := sextNat (fld rb 0 32) 32
      let ext := vxeExtent iw x.a rb
      wideCheck x p true ext (vxeStores iw)
      go x.field rb [wideRange c x ext (vxeStores iw)]
    else do
      let s ← vxeScalar th iw
      go 0 s []

/-! ## Lanes -/

/-- One result lane: its value, whether a marked word contributed, and what it raises. -/
structure VLane where
  v   : Nat
  pz  : Bool := false
  fl  : Flags := fNone
  iov : Bool := false
  deriving DecidableEq, Repr

/-- What a command writes: lanes of w bytes from byte `off` of a register, and whether its exceptions may trap. -/
structure VOut where
  w     : Nat
  off   : Nat := 0
  lanes : List VLane
  ieee  : Bool := false
  deriving DecidableEq, Repr

/-- Lane i of w bytes of register r, from byte `off` on. -/
def Vxe.lane (v : Vxe) (r off w i : Nat) : Nat := rdNat v.v (128 * r + off + w * i) w
/-- The mark of the word that holds that lane. -/
def Vxe.laneMark (v : Vxe) (r off w i : Nat) : Bool := v.mark r ((off + w * i) / 8)

/-- A lane read as a source: its value and mark. -/
def Vxe.src (v : Vxe) (r off w i : Nat) : VLane := { v := v.lane r off w i, pz := v.laneMark r off w i }

/-- An elementwise operation of n lanes on registers a and b. -/
def lanes2 (v : Vxe) (a b w n : Nat) (f : Nat → Nat → Nat × Flags × Bool) : List VLane :=
  (List.range n).map fun i =>
    let x := f (v.lane a 0 w i) (v.lane b 0 w i)
    { v := x.1, pz := v.laneMark a 0 w i || v.laneMark b 0 w i, fl := x.2.1, iov := x.2.2 }

/-- The same on one register. -/
def lanes1 (v : Vxe) (a off w n : Nat) (f : Nat → Nat → Nat × Flags × Bool) : List VLane :=
  (List.range n).map fun i =>
    let x := f i (v.lane a off w i)
    { v := x.1, pz := v.laneMark a off w i, fl := x.2.1, iov := x.2.2 }

/-- All ones or zero in w bytes. -/
def maskOf (w : Nat) (b : Bool) : Nat := if b then 2 ^ (8 * w) - 1 else 0

/-! ## What each group computes -/

/-- The rounding that an entry captured (R273). -/
def capturedRnd (h : QEnt) : Rnd :=
  let iw := h.iw 1
  match vxeRm iw with
  | some 7 => (Rnd.ofCode (fld (h.w 0) 53 3)).getD .ties
  | some rm => (Rnd.ofCode rm).getD .ties
  | none => .ties

/-- Major 0x38 (Table 8-3). -/
def v38 (rm : Rnd) (fn a b : Nat) : Nat × Flags :=
  let cmp (r : Bool × Flags) : Nat × Flags := (maskOf 4 r.1, r.2)
  match fn with
  | 0 => b32.add rm a b
  | 1 => b32.sub rm a b
  | 2 => b32.mul rm a b
  | 3 => b32.div rm a b
  | 4 => b32.sqrt rm a
  | 5 => b32.minimum a b
  | 6 => b32.maximum a b
  | 7 => b32.numForm b32.minimum a b
  | 8 => b32.numForm b32.maximum a b
  | 9 => cmp (b32.cmpEq a b)
  | 10 => cmp (b32.cmpLt a b)
  | 11 => cmp (b32.cmpLe a b)
  | 12 => (b32.neg a, fNone)
  | 13 => (b32.abs a, fNone)
  | 14 => (b32.copySign a b, fNone)
  | 16 => (vexp2 a, fNone)
  | 17 => (vlog2 a, fNone)
  | 18 => (vrcp a, fNone)
  | _ => (vrsq a, fNone)

/-- A unary fn of major 0x38. -/
def v38Unary (fn : Nat) : Bool := decide (fn = 4 ∨ fn = 12 ∨ fn = 13 ∨ 16 ≤ fn)

/-- Major 0x3A on lanes of w bytes (Table 8-5); `d` is the lane of vd, for VBSL. -/
def v3A (w fn a b d : Nat) : Nat × Bool :=
  let n := 8 * w
  let m := 2 ^ n
  let sa := sextNat a n
  let sb := sextNat b n
  let sat (x : Int) : Nat × Bool := let r := satTo n x; (natOfInt n r.1, r.2)
  let sh := b % n
  match fn with
  | 0 => ((a + b) % m, false)
  | 1 => ((a + m - b) % m, false)
  | 2 => sat (sa + sb)
  | 3 => sat (sa - sb)
  | 4 => (a * b % m, false)
  | 5 => (natOfInt n (sa * sb / 2 ^ n), false)
  | 6 => (if sa ≤ sb then a else b, false)
  | 7 => (if sa ≤ sb then b else a, false)
  | 8 => (min a b, false)
  | 9 => (max a b, false)
  | 10 => (a &&& b, false)
  | 11 => (a ||| b, false)
  | 12 => (a ^^^ b, false)
  | 13 => (a * 2 ^ sh % m, false)
  | 14 => (a / 2 ^ sh, false)
  | 15 => (natOfInt n (sa / 2 ^ sh), false)
  | 16 => (maskOf w (a == b), false)
  | 17 => (maskOf w (decide (sa < sb)), false)
  | 18 => (maskOf w (decide (a < b)), false)
  | 19 => ((d &&& a) ||| ((m - 1 - d) &&& b), false)
  | _ => sat (if sa < 0 then -sa else sa)

/-- Conversions of major 0x3B (Table 8-6), with the key captured at issue (R227). -/
def v3B (v : Vxe) (owner : Nat) (h : QEnt) : VOut :=
  let iw := h.iw 1
  let a := nf iw 16 5
  let cv := nf iw 7 4
  let half := nf iw 5 1
  let part := nf iw 5 2
  let rm := capturedRnd h
  let s := (h.w 2).toInt
  let rnd (i : Nat) : Option Nat :=
    if nf iw 4 1 = 1 then some (randBits (h.w 3).toNat (fld (h.w 1) 32 32) owner h.key i) else none
  let ovn := nf iw 3 1 = 1
  let plain (x : Nat) : Nat × Flags × Bool := (x, fNone, false)
  let fl (x : Nat × Flags) : Nat × Flags × Bool := (x.1, x.2, false)
  let sat (n : Nat) (x : Nat) : Nat × Flags × Bool := let r := satTo n (sextNat x 32); (natOfInt n r.1, fNone, r.2)
  match cv with
  | 0 => { w := 2, off := 64 * half, lanes := lanes1 v a 0 4 32 fun i x => fl (df16.narrow ovn (rnd i) x) }
  | 1 => { w := 1, off := 32 * part, lanes := lanes1 v a 0 4 32 fun i x => fl (df8.narrow ovn (rnd i) x) }
  | 2 => { w := 4, lanes := lanes1 v a (64 * half) 2 32 fun _ x => plain (df16.widen x) }
  | 3 => { w := 4, lanes := lanes1 v a (32 * part) 1 32 fun _ x => plain (df8.widen x) }
  | 4 => { w := 4, lanes := lanes1 v a 0 4 32 fun _ x =>
      let r := b32.toInt rm (-2147483648) 2147483647 x
      (natOfInt 32 r.1, r.2, false) }
  | 5 => { w := 4, lanes := lanes1 v a 0 4 32 fun _ x => fl (b32.ofInt rm (sextNat x 32)) }
  | 6 => { w := 4, lanes := lanes1 v a (64 * half) 2 32 fun _ x => plain (natOfInt 32 (sextNat x 16)) }
  | 7 => { w := 2, off := 64 * half, lanes := lanes1 v a 0 4 32 fun _ x => sat 16 x }
  | 8 => { w := 4, lanes := lanes1 v a (32 * part) 1 32 fun _ x => plain (natOfInt 32 (sextNat x 8)) }
  | 9 => { w := 1, off := 32 * part, lanes := lanes1 v a 0 4 32 fun _ x => sat 8 x }
  | 10 => { w := 4, lanes := lanes1 v a 0 4 32 fun _ x => let r := vqnt 32 s x; (natOfInt 32 r.1, r.2.1, r.2.2) }
  | 11 => { w := 8, lanes := lanes1 v a (64 * half) 4 16 fun _ x => let r := vqnt 64 s x; (natOfInt 64 r.1, r.2.1, r.2.2) }
  | 12 => { w := 4, lanes := lanes1 v a 0 4 32 fun _ x => fl (vdq rm s (sextNat x 32)) }
  | 13 => { w := 4, off := 64 * half, lanes := lanes1 v a 0 8 16 fun _ x => fl (vdq rm s (sextNat x 64)) }
  | _ => { w := 4, lanes := lanes1 v a 0 4 32 fun _ x => plain (natOfInt 32 (vgexp x)) }

/-- One pass of a binary tree over lanes, the even lane first. -/
def treePass (op : VLane → VLane → VLane) : List VLane → List VLane
  | x :: y :: r => op x y :: treePass op r
  | l => l

/-- lane_tree of R282 in k passes: every flag raised and every mark met is kept. -/
def laneTree (op : VLane → VLane → VLane) : Nat → List VLane → VLane
  | 0, l => l.headD { v := 0 }
  | k + 1, l => laneTree op k (treePass op l)

/-- Joining two lanes by a float operation. -/
def joinF (f : Nat → Nat → Nat × Flags) (x y : VLane) : VLane :=
  let r := f x.v y.v
  { v := r.1, pz := x.pz || y.pz, fl := x.fl ||| y.fl ||| r.2, iov := x.iov || y.iov }

/-- Joining two integer lanes of n bits with saturation. -/
def joinSat (n : Nat) (x y : VLane) : VLane :=
  let r := satTo n (sextNat x.v n + sextNat y.v n)
  { v := natOfInt n r.1, pz := x.pz || y.pz, fl := x.fl ||| y.fl, iov := x.iov || y.iov || r.2 }

/-- Joining two int32 lanes by their maximum. -/
def joinMax (x y : VLane) : VLane :=
  { v := if sextNat x.v 32 ≤ sextNat y.v 32 then y.v else x.v, pz := x.pz || y.pz, fl := x.fl ||| y.fl, iov := x.iov || y.iov }

/-- Permutes, lane reductions and random numbers of major 0x3D (Table 8-7), with the key captured at issue (R227). -/
def v3D (v : Vxe) (owner : Nat) (h : QEnt) : VOut :=
  let iw := h.iw 1
  let a := nf iw 16 5
  let b := nf iw 11 5
  let i6 := nf iw 0 6
  let all (w n : Nat) : List VLane := (List.range n).map fun i => v.src a 0 w i
  let lane0 (x : VLane) (n : Nat) : List VLane := x :: List.replicate (n - 1) { v := 0 }
  match nf iw 6 5 with
  | 0 => { w := 4, lanes := (List.range 32).map fun i =>
      let k := v.lane b 0 4 i % 32
      { v := v.lane a 0 4 k, pz := v.laneMark a 0 4 k || v.laneMark b 0 4 i } }
  | 1 => { w := 4, lanes := (List.range 32).map fun i => v.src a 0 4 ((i + i6) % 32) }
  | 2 => { w := 4, lanes := List.replicate 32 (v.src a 0 4 (i6 % 32)) }
  | 3 =>
    let w := 2 ^ (i6 % 4)
    { w := w, lanes := List.replicate (128 / w) { v := (h.w 2).toNat % 2 ^ (8 * w) } }
  | 4 => { w := 2, lanes := (List.range 64).map fun i => v.src (if i % 2 = 0 then a else b) 0 2 (i / 2) }
  | 5 => { w := 2, lanes := (List.range 64).map fun i => v.src (if i % 2 = 0 then a else b) 0 2 (32 + i / 2) }
  | 6 => { w := 2, lanes := (List.range 64).map fun i => v.src (if i < 32 then a else b) 0 2 (2 * (i % 32)) }
  | 7 => { w := 2, lanes := (List.range 64).map fun i => v.src (if i < 32 then a else b) 0 2 (2 * (i % 32) + 1) }
  | 8 => { w := 4, ieee := true, lanes := lane0 (laneTree (joinF (b32.add (capturedRnd h))) 5 (all 4 32)) 32 }
  | 9 => { w := 4, ieee := true, lanes := lane0 (laneTree (joinF b32.maximum) 5 (all 4 32)) 32 }
  | 10 => { w := 4, ieee := true, lanes := lane0 (laneTree (joinF b32.minimum) 5 (all 4 32)) 32 }
  | 11 => { w := 4, lanes := lane0 (laneTree (joinSat 32) 5 (all 4 32)) 32 }
  | 12 => { w := 4, lanes := lane0 (laneTree joinMax 5 (all 4 32)) 32 }
  | 13 => { w := 8, lanes := lane0 (laneTree (joinSat 64) 4 (all 8 16)) 16 }
  | _ => { w := 4, lanes := (List.range 32).map fun i =>
      let u := (philox (((h.w 3).toNat + i / 4) % 2 ^ 64) (fld (h.w 1) 32 32) owner h.key).getD (i % 4) 0
      { v := if i6 % 2 = 1 then (b32.round .ties false (u / 256) (-24)).1 else u } }

/-- A command that writes one register from registers (majors 0x38 to 0x3B, 0x3D). -/
def vxeCompute (v : Vxe) (owner : Nat) (h : QEnt) : VOut :=
  let iw := h.iw 1
  let d := nf iw 21 5
  let a := nf iw 16 5
  let b := nf iw 11 5
  match major iw with
  | 0x38 =>
    let fn := nf iw 0 8
    let rm := capturedRnd h
    let b' := if v38Unary fn then a else b
    { w := 4, ieee := decide (fn < 16), lanes := lanes2 v a b' 4 32 fun x y => let r := v38 rm fn x y; (r.1, r.2, false) }
  | 0x39 =>
    let fn := nf iw 0 3
    let vc := nf iw 6 5
    let rm := capturedRnd h
    { w := 4, ieee := true
      lanes := (List.range 32).map fun i =>
        let r := b32.fma rm (fn == 2 || fn == 3) (fn == 1 || fn == 3) (v.lane a 0 4 i) (v.lane b 0 4 i) (v.lane vc 0 4 i)
        { v := r.1, pz := v.laneMark a 0 4 i || v.laneMark b 0 4 i || v.laneMark vc 0 4 i, fl := r.2 } }
  | 0x3A =>
    let fn := nf iw 0 9
    let w := 2 ^ (nf iw 9 2 + 1)
    let b' := if fn = 20 then a else b
    { w := w
      lanes := (List.range (128 / w)).map fun i =>
        let r := v3A w fn (v.lane a 0 w i) (v.lane b' 0 w i) (v.lane d 0 w i)
        { v := r.1, pz := v.laneMark a 0 w i || v.laneMark b' 0 w i || (fn == 19 && v.laneMark d 0 w i), iov := r.2 } }
  | 0x3B => v3B v owner h
  | _ => v3D v owner h

/-- Committing lanes to a register: bytes, marks of the words written, flags and IOV (R271, R287, R288). -/
def Vxe.commit (v : Vxe) (r : Nat) (o : VOut) : Vxe :=
  let v1 := { v with v := wrBytes v.v (128 * r + o.off) (o.lanes.flatMap fun l => leBytes o.w l.v)
                     flags := o.lanes.foldl (fun f l => f ||| l.fl) v.flags
                     fIov := v.fIov || o.lanes.any fun l => l.iov }
  let n := o.w * o.lanes.length
  (List.range (n / 8)).foldl (fun x k =>
    x.setMark r (o.off / 8 + k) ((List.range o.lanes.length).any fun i => o.w * i / 8 == k && ((o.lanes[i]?).map VLane.pz).getD false)) v1

/-! ## Row reduction (R285) -/

/-- The lane width, lane operation and trapping of a VRED.ROWS op code. -/
def vredW (op : Nat) : Nat := if op = 4 then 8 else 4
def vredIeee (op : Nat) : Bool := decide (op ≤ 2)
def vredJoin (op : Nat) : VLane → VLane → VLane :=
  match op with
  | 0 => joinF (b32.add .ties)
  | 1 => joinF b32.maximum
  | 2 => joinF b32.minimum
  | 3 => joinSat 32
  | 4 => joinSat 64
  | _ => joinMax

/-- Row r of a VRED.ROWS as lanes. -/
def vredRowLanes (c : Core) (h : QEnt) (w r : Nat) : List VLane :=
  let p := sextNat (fld (h.w 2) 0 32) 32
  (List.range (128 / w)).map fun i =>
    let b := wideBytes c h (p * r + (w * i : Nat)) w
    { v := leNat b.1, pz := b.2 }

/-- Rows [lo, hi) folded: the first row replaces the accumulator when Z = 1. -/
def vredRows (c : Core) (h : QEnt) (lo hi : Nat) : VOut :=
  let iw := h.iw 1
  let d := nf iw 21 5
  let op := nf iw 5 3
  let z := nf iw 4 1 = 1
  let w := vredW op
  let acc0 : List VLane :=
    if z ∧ lo = 0 then vredRowLanes c h w 0 else (List.range (128 / w)).map fun i => c.vxe.src d 0 w i
  let from0 := if z ∧ lo = 0 then 1 else lo
  { w := w, ieee := vredIeee op
    lanes := (List.range (hi - from0)).foldl (fun acc k =>
      (acc.zip (vredRowLanes c h w (from0 + k))).map fun p => vredJoin op p.1 p.2) acc0 }

/-- Rows of a command: R of a VRED.ROWS, 1 of any other. -/
def vxeRowCount (h : QEnt) : Nat :=
  if major (h.iw 1) = 0x3C ∧ nf (h.iw 1) 8 3 = 3 then fld (h.w 2) 32 16 + 1 else 1

/-! ## Completion and traps (R271, R287 to R291) -/

/-- Every exception raised in the lanes. -/
def VOut.raised (o : VOut) : Flags := o.lanes.foldl (fun f l => f ||| l.fl) fNone

/-- The lowest lane that raises an exception enabled in `te`. -/
def VOut.trapLane (o : VOut) (te : Flags) : Option Nat :=
  (List.range o.lanes.length).find? fun i => decide ((((o.lanes[i]?).map VLane.fl).getD fNone &&& te) ≠ 0)

/-- The result of a command that writes a register; rows [lo, hi) of a VRED.ROWS. -/
def vxeResult (e : Env) (c : Core) (h : QEnt) (lo hi : Nat) : Option VOut :=
  let iw := h.iw 1
  let p := sextNat (fld (h.w 2) 0 32) 32
  if major iw = 0x3C then
    match nf iw 8 3 with
    | 0 => some { w := 8, lanes := (List.range 16).map fun i => let b := wideBytes c h ((8 * i : Nat) : Int) 8; { v := leNat b.1, pz := b.2 } }
    | 1 => some { w := 4, lanes := (List.range 32).map fun i => let b := wideBytes c h (p * i) 4; { v := leNat b.1, pz := b.2 } }
    | 2 => none
    | _ => some (vredRows c h lo hi)
  else some (vxeCompute c.vxe ((c.owner e 1).getD 0) h)

/-- VST (Table 8-8, R287). -/
def vstAll (c : Core) (h : QEnt) : Core :=
  let iw := h.iw 1
  let d := nf iw 21 5
  let n := 4 * (nf iw 0 5 + 1)
  let words := ((List.range n).filter fun i => c.vxe.mark d (i / 8)).map fun i => byteOf c h (i : Int) / 8
  { c with spad := wideScatter c h 0 ((c.vxe.regBytes d).take n) fun w => words.contains w }

/-- The engine's part of an IEEE trap: halted, with TINFO and the event for the owner (R289, R290). -/
def vxeTrap (e : Env) (c : Core) (h : QEnt) (o : VOut) (lane : Nat) (tr : Flags) : Core × List Emit :=
  let g := c.vxe.eng
  let pc := fld (h.w 0) 32 16
  -- a later command already in execution starts again after the halt
  let q := match g.q with | x :: r => x :: r.map (fun y => { y with started := false }) | [] => []
  let v := { c.vxe with eng := { g with halt := true, hcause := 3, q := q }
                        tLane := lane, tExc := o.raised, tAddr := BitVec.ofNat 16 pc }
  (({ c with vxe := v }).notify e 1 { code := 0x22, sub := 128 + tr.toNat, addr := BitVec.ofNat 64 pc }, [])

/-- The head of VXE.Q completes; `deflt` as if its TE bits were clear (R291). -/
def vxeComplete (e : Env) (c : Core) (h : QEnt) (deflt : Bool) : Core × List Emit :=
  let iw := h.iw 1
  let te : Flags := if deflt then 0 else BitVec.ofNat 5 (fld (h.w 0) 48 5)
  match vxeResult e c h c.vxe.eng.srow (vxeRowCount h) with
  | none => settleAll e ((vstAll c h).popHead 1)
  | some o =>
    match (if o.ieee then o.trapLane te else none) with
    | some l => vxeTrap e c h o l (o.raised &&& te)
    | none => settleAll e ({ c with vxe := c.vxe.commit (nf iw 21 5) o }.popHead 1)

/-- VXE.CTL.DEFAULT: acts on a halt for an IEEE trap (R291). -/
def vxeDefault (e : Env) (c : Core) : Core × List Emit :=
  let g := c.vxe.eng
  match g.q with
  | h :: _ =>
    if g.halt ∧ g.hcause = 3 then vxeComplete e { c with vxe := { c.vxe with eng := { g with halt := false, hcause := 0 } } } h true
    else (c, [])
  | [] => (c, [])

/-! ## Interlocks (R254, R272) -/

/-- V registers that a VXE word reads. -/
def vxeReads (iw : Nat) : List Nat :=
  let d := nf iw 21 5
  let a := nf iw 16 5
  let b := nf iw 11 5
  match major iw with
  | 0x38 => if v38Unary (nf iw 0 8) then [a] else [a, b]
  | 0x39 => [a, b, nf iw 6 5]
  | 0x3A => if nf iw 0 9 = 19 then [a, b, d] else if nf iw 0 9 = 20 then [a] else [a, b]
  | 0x3B => [a]
  | 0x3C => if nf iw 8 3 = 2 then [d] else if nf iw 8 3 = 3 ∧ nf iw 4 1 = 0 then [d] else []
  | 0x3D =>
    let fn := nf iw 6 5
    if fn = 3 ∨ fn = 14 then [] else if fn = 0 ∨ (4 ≤ fn ∧ fn ≤ 7) then [a, b] else [a]
  | _ => []

/-- V registers that a VXE word writes. -/
def vxeWrites (iw : Nat) : List Nat :=
  let m := major iw
  if m = 0x3C ∧ nf iw 8 3 = 2 then [] else if 0x38 ≤ m ∧ m ≤ 0x3D then [nf iw 21 5] else []

/-- A scratchpad command, and a VRED.ROWS. -/
def vxeIsMem (iw : Nat) : Bool := major iw == 0x3C
def vxeIsRed (iw : Nat) : Bool := major iw == 0x3C && nf iw 8 3 == 3

/-- A command may start beside an earlier one still in execution (R272). -/
def vxeApart (a b : Nat) : Bool :=
  (vxeReads b).all (fun r => !(vxeWrites a).contains r) && (vxeWrites b).all (fun r => !(vxeReads a).contains r)
    && !(vxeIsMem a && vxeIsMem b) && !(vxeIsRed a && vxeIsRed b)

end Sys2Proof.Machine
end

