-- ==== Sys2Proof/Machine/Dma.lean ====
section
/-! DEFINITION. The DMA channels: DMAGO and its checks, the three loops, bursts and pieces, request lines, completion, abort and the status record (spec 09). -/

namespace Sys2Proof.Machine

/-! ## The descriptor (Table 9-1, R299, R63) -/

/-- The instruction word of a DMAGO (Tables 3-5 and 3-17). -/
def encDmago (ra rb : Nat) : Nat := 0x3F * 2 ^ 26 + 4 * 2 ^ 22 + ra * 2 ^ 17 + rb * 2 ^ 12

/-- A captured descriptor: words 0 to 11 of a queue entry. -/
abbrev Desc := List Word
def Desc.w (d : Desc) (i : Nat) : Word := d.getD i 0
def Desc.src (d : Desc) : Word := d.w 0
def Desc.dst (d : Desc) : Word := d.w 1
def Desc.run (d : Desc) : Nat := fld (d.w 2) 0 16 + 1
def Desc.cnt (d : Desc) (l : Nat) : Nat := fld (d.w 2) (16 + 16 * l) 16 + 1
def Desc.sStep (d : Desc) (l : Nat) : Int := sextNat (fld (d.w (3 + l)) 0 32) 32
def Desc.dStep (d : Desc) (l : Nat) : Int := sextNat (fld (d.w (3 + l)) 32 32) 32
def Desc.psna (d : Desc) : Bool := bit (d.w 6) 36
def Desc.cpulse (d : Desc) : Nat := fld (d.w 6) 34 2
def Desc.cen (d : Desc) : Bool := bit (d.w 6) 33
def Desc.ilvl (d : Desc) : Nat := fld (d.w 6) 29 3
def Desc.scope (d : Desc) : Nat := fld (d.w 6) 27 2
def Desc.stream (d : Desc) : Nat := fld (d.w 6) 17 10
def Desc.net (d : Desc) : Bool := bit (d.w 6) 16
def Desc.reqidx (d : Desc) : Nat := fld (d.w 6) 9 6
def Desc.req (d : Desc) : Nat := fld (d.w 6) 6 3
def Desc.burst (d : Desc) : Nat := 64 * (fld (d.w 6) 0 6 + 1)
def Desc.reqval (d : Desc) : Nat := (d.w 7).toNat
def Desc.total (d : Desc) : Nat := d.run * d.cnt 0 * d.cnt 1 * d.cnt 2

/-- The loop indices and the offset in the run of byte k of the transfer. -/
def Desc.idx (d : Desc) (k : Nat) : Nat × Nat × Nat × Nat :=
  let r := k / d.run
  (r / d.cnt 0 / d.cnt 1, r / d.cnt 0 % d.cnt 1, r % d.cnt 0, k % d.run)

/-- The displacement of byte k from the base of an end with the given steps (R299). -/
def Desc.delta (d : Desc) (step : Nat → Int) (k : Nat) : Int :=
  let (i2, i1, i0, off) := d.idx k
  i0 * step 0 + i1 * step 1 + i2 * step 2 + off

/-- The extent of an end relative to its base: lowest byte, highest byte + 1 (R63). -/
def Desc.extent (d : Desc) (step : Nat → Int) : Int × Int :=
  let span (l : Nat) : Int := ((d.cnt l : Int) - 1) * step l
  (min 0 (span 0) + min 0 (span 1) + min 0 (span 2),
   max 0 (span 0) + max 0 (span 1) + max 0 (span 2) + d.run)

/-- The position word of byte k in the layout of DMA.n.POS. -/
def Desc.posWord (d : Desc) (k : Nat) : Word :=
  let (i2, i1, i0, off) := d.idx k
  pack [(i2, 48, 16), (i1, 32, 16), (i0, 16, 16), (off, 0, 16)]

/-- The byte that a position word names. -/
def Desc.posByte (d : Desc) (w : Word) : Nat :=
  ((fld w 48 16 * d.cnt 1 + fld w 32 16) * d.cnt 0 + fld w 16 16) * d.run + fld w 0 16

/-! ## Ends -/

/-- Where an end of a transfer lies. -/
inductive DmaEnd where
  /-- the core's own scratchpad from a byte offset -/
  | loc (o : Nat)
  /-- ring-relative in the core's own scratchpad -/
  | ring (idx o : Nat)
  /-- a system address elsewhere -/
  | rem (a : Word)
  deriving DecidableEq, Repr

/-- The end that a descriptor address names (R64, R198). -/
def dmaEnd (e : Env) (a : Word) : DmaEnd :=
  match e.localOff a with
  | some o => if isRingForm o then .ring (ringIdx o) (ringOff o) else .loc o
  | none => .rem (e.normChip a)

def DmaEnd.isLocal : DmaEnd → Bool
  | .rem _ => false
  | _ => true

/-- The bytes that a local end declares: its extent, or the ring's (R297). -/
def localExtent (c : Core) (x : DmaEnd) (ext : Int × Int) : Int × Int :=
  match x with
  | .loc o => (o + ext.1, o + ext.2)
  | .ring n _ => let r := c.ringAt n; ((r.base * 128 : Nat), ((r.base + r.size) * 128 : Nat))
  | .rem _ => (0, 0)

/-- The tracker range of an end. -/
def endRange (c : Core) (x : DmaEnd) (ext : Int × Int) (wr : Bool) : Bool × Nat × Nat × Bool :=
  match x with
  | .rem a => (false, ((a.toNat : Int) + ext.1).toNat, (ext.2 - ext.1).toNat, wr)
  | _ => let l := localExtent c x ext; (true, l.1.toNat, (l.2 - l.1).toNat, wr)

/-- Both tracker ranges of a descriptor (R297). -/
def dmaRanges (e : Env) (c : Core) (d : Desc) : List (Bool × Nat × Nat × Bool) :=
  [endRange c (dmaEnd e d.src) (d.extent d.sStep) false, endRange c (dmaEnd e d.dst) (d.extent d.dStep) true]

/-! ## DMAGO (R303, Table 9-4) -/

/-- The descriptor's words, each RAW, INT or SPTR. -/
def readDesc (s : Spad) (a : Nat) : Nat → Except Ev Desc
  | 0 => .ok []
  | n + 1 => do
    let w ← needMem (s.word a) a [.raw, .int, .sptr]
    let r ← readDesc s (a + 8) n
    return w.val :: r

/-- A form of Table 9-2 is absent: the word that shows it. -/
def formBad (x y : DmaEnd) (d : Desc) : Option Nat :=
  let k (a : Word) : Nat := saKind a
  if !d.net then none
  else match x.isLocal, y.isLocal with
    | true, true => none
    | true, false => if k d.dst = 0 ∨ (k d.dst = 1 ∧ fld d.dst 0 24 = 0) ∨ 5 ≤ k d.dst then none else some 1
    | false, true => if k d.src = 0 ∨ 5 ≤ k d.src then none else some 0
    | false, false => some 0

/-- A local end outside the presented scratchpad: the address that XADDR shows. -/
def extentBad (e : Env) (x : DmaEnd) (ext : Int × Int) : Option Word :=
  match x with
  | .loc o =>
    if (o : Int) + ext.1 < 0 then some (iWord (o + ext.1))
    else if (e.spadBytes : Int) < o + ext.2 then some (iWord (max (e.spadBytes : Int) (o + ext.1)))
    else none
  | _ => none

/-- The bounds row of Table 9-4: the first descriptor word in word order that fails, with XADDR. -/
def dmaBounds (e : Env) (c : Core) (d : Desc) (ea ch : Nat) : Option Word :=
  let x := dmaEnd e d.src
  let y := dmaEnd e d.dst
  let at' (i : Nat) : Word := BitVec.ofNat 64 (ea + 8 * i)
  let sx := d.extent d.sStep
  let dx := d.extent d.dStep
  let a := localExtent c x sx
  let b := localExtent c y dx
  let overlap := x.isLocal && y.isLocal && decide (a.1 < b.2) && decide (b.1 < a.2)
  let req := d.req
  let ri := d.reqidx
  let w6 := fld (d.w 6) 37 27 ≠ 0 ∨ bit (d.w 6) 32 ∨ bit (d.w 6) 15 ∨ d.cpulse = 3 ∨ 5 ≤ req
    ∨ (!d.net && decide (d.stream ≠ 0)) ∨ (d.net && (decide (d.stream % 2 = 1) || !e.injects.contains d.stream))
    ∨ (req = 1 ∧ 47 < ri) ∨ (req = 2 ∧ 15 < ri) ∨ (req ≠ 1 ∧ req ≠ 2 ∧ ri ≠ 0)
    ∨ (req = 2 ∧ !(match x with | .ring n _ => n == ri % 16 && (c.ringAt n).ckind == 2 + ch | _ => false))
  let w7 := (req = 3 ∧ d.reqval = 0) ∨ (req ≠ 1 ∧ req ≠ 3 ∧ d.reqval ≠ 0)
  match extentBad e x sx with
  | some v => some v
  | none =>
    if overlap || formBad x y d == some 0 then some (at' 0)
    else match extentBad e y dx with
      | some v => some v
      | none =>
        if formBad x y d = some 1 then some (at' 1)
        else if w6 then some (at' 6)
        else if w7 then some (at' 7)
        else if !d.cen && decide (d.w 8 ≠ 0) then some (at' 8)
        else if (if d.cen then decide ((d.w 9).toNat = 0) || decide (2 ^ 32 ≤ (d.w 9).toNat) else decide (d.w 9 ≠ 0)) then some (at' 9)
        else if d.w 11 ≠ 0 then some (at' 11) else none

/-- The far access row of Table 9-4. -/
def dmaFar (d : Desc) : Option Word :=
  if 5 ≤ saKind d.src then some d.src
  else if 5 ≤ saKind d.dst then some d.dst
  else if d.cen && (saCounter (d.w 8)).isNone then some (d.w 8)
  else if 5 ≤ saKind (d.w 10) then some (d.w 10) else none

/-- Kinds 2 and 4 in U mode. -/
def dmaPriv (d : Desc) : Option Word :=
  [d.src, d.dst, d.w 10].find? fun a => saKind a == 2 || saKind a == 4

/-- The checks of Table 9-4 that follow the descriptor's words. -/
def dmaChecks (e : Env) (c : Core) (t ch ea : Nat) (smode : Bool) (d : Desc) : Except Ev Unit := do
  needOwner e c t (2 + ch)
  match (if smode then none else dmaPriv d) with
  | some a => .error (evPriv a)
  | none =>
    if fld (d.w 10) 0 4 ≠ 0 then .error (evAlign (d.w 10))
    else match dmaBounds e c d ea ch with
      | some a => .error (evBounds a)
      | none =>
        match dmaFar d with
        | some a => .error (evFar a)
        | none => .ok ()

/-- DMAGO (R126, R295, R303). -/
def opDmago (ra rb : Nat) : Body := fun e c t => do
  let th := c.thread t
  let h ← needHnd (th.reg ra) [5]
  let ch := hndIndex h
  if c.ownerFull e t (2 + ch) then
    return (c, .wait .queueFull (.dmago ra rb), [])
  let p ← needTag (th.reg rb) [.ptr]
  let a := ptrAddr p
  if a % 8 ≠ 0 then .error (evAlign (iWord a))
  else if !ptrRange p 96 false then .error (evBounds (iWord a))
  else
    let d ← readDesc c.spad a.toNat 12
    dmaChecks e c t ch a.toNat th.smode d
    let qw : List Word := d ++ [pack [(encDmago ra rb, 0, 32), (b2n th.smode, 32, 1)]]
    let (c1, ctl, em) ← enqueue c (2 + ch) qw (dmaRanges e c d) (.dmago ra rb)
    return (if ctl = .seq then c1.noteHead e ch else c1, ctl, em)

/-! ## Running: addresses of the bytes of a transfer -/

/-- The descriptor of a queue entry. -/
def QEnt.desc (h : QEnt) : Desc := h.qw.take 12

/-- The end is in a ring bound to this channel (R300). -/
def boundRing (c : Core) (ch : Nat) (x : DmaEnd) (wr : Bool) : Option Nat :=
  match x with
  | .ring n _ => if (if wr then (c.ringAt n).pkind == 3 + ch else (c.ringAt n).ckind == 2 + ch) then some n else none
  | _ => none

/-- The local byte that byte k of the transfer has at an end, resolved at `first` when ring-relative (R199). -/
def localByte (c : Core) (d : Desc) (x : DmaEnd) (step : Nat → Int) (first k : Nat) : Nat :=
  match x with
  | .loc o => ((o : Int) + d.delta step k).toNat
  | .ring n _ => ringByte (c.ringAt n) first (d.delta step k - (d.extent step).1).toNat
  | .rem _ => 0

/-- The remote address of byte k. -/
def remoteAddr (a : Word) (d : Desc) (step : Nat → Int) (k : Nat) : Word := a + ofInt (d.delta step k)

/-- Bytes [k, k + n) cut at run boundaries: (first byte, length). -/
def runSegs (run : Nat) : Nat → Nat → Nat → List (Nat × Nat)
  | 0, _, _ => []
  | fuel + 1, k, n =>
    if n = 0 then []
    else let m := min n (run - k % run); (k, m) :: runSegs run fuel (k + m) (n - m)

/-- One run segment cut at lines of an address. -/
def lineSegs (line : Nat) : Nat → Nat → Nat → Nat → List (Nat × Nat)
  | 0, _, _, _ => []
  | fuel + 1, a, k, n =>
    if n = 0 then []
    else let m := min n (line - a % line); (k, m) :: lineSegs line fuel (a + m) (k + m) (n - m)

/-- Joining segments whose remote addresses run on (R302). -/
def joinSegs (addr : Nat → Word) : List (Nat × Nat) → List (Nat × Nat)
  | [] => []
  | (k, n) :: r =>
    match joinSegs addr r with
    | (k2, n2) :: r2 => if addr k2 = addr k + BitVec.ofNat 64 n then (k, n + n2) :: r2 else (k, n) :: (k2, n2) :: r2
    | [] => [(k, n)]

/-- The line of a remote target: 64 bytes, or whole registers (R308, R310). -/
def remoteLine (a : Word) : Nat := if saKind a = 2 ∨ saKind a = 4 then 8 else 64

/-- The pieces of bytes [k, k + n) at a remote end: by item when on the data mesh, else by line. -/
def remotePieces (a : Word) (d : Desc) (step : Nat → Int) (mesh : Bool) (k n : Nat) : List (Nat × Nat) :=
  let addr := remoteAddr a d step
  let segs := runSegs d.run n k n
  if mesh then joinSegs addr segs
  else segs.flatMap fun p => lineSegs (remoteLine a) p.2 (addr p.1).toNat p.1 p.2

/-- Words of a payload at an address that a predicate marks: counted from the word of the first byte. -/
def markedWords (a n : Nat) (pz : Nat → Bool) : List Nat :=
  (List.range ((a % 8 + n + 7) / 8)).filter fun w =>
    (List.range 8).any fun j => decide (a % 8 ≤ 8 * w + j) && decide (8 * w + j < a % 8 + n) && pz (8 * w + j - a % 8)

/-! ## Starting (R295, R304, R199, R300) -/

/-- Resolving one end at the start: its first byte, a wait, or a refusal. -/
def resolveEnd (c : Core) (ch : Nat) (d : Desc) (x : DmaEnd) (step : Nat → Int) (wr : Bool) : Resolved :=
  let ext := d.extent step
  match x with
  | .loc _ => .at 0
  | .rem a => if saKind a = 1 ∧ isRingForm (fld a 0 24) then .refused 2 else .at 0
  | .ring n o =>
    match boundRing c ch x wr with
    | some _ => if wr ∨ (c.ringAt n).fsm.st = .on then .at 0 else .refused 1
    | none =>
      if (o : Int) + ext.1 < 0 then .refused 2
      else ringResolve c n ((o : Int) + ext.1).toNat (ext.2 - ext.1).toNat wr

/-- The head of a channel's queue when it is a transfer. -/
def headTransfer (c : Core) (ch : Nat) : Option QEnt :=
  match (c.dma ch).eng.q with
  | h :: _ => if h.isCtr (2 + ch) then none else some h
  | [] => none

/-- Changing the running transfer. -/
def Core.updRun (c : Core) (ch : Nat) (f : DmaRun → DmaRun) : Core :=
  let d := c.dma ch
  c.setDma ch { d with run := d.run.map f }

/-- The head transfer begins: its T0, the tick at which it was the head with no conflict left, its resolved ends, and the byte that POS names (R304, R319). -/
def dmaBegin (e : Env) (c : Core) (ch : Nat) (h : QEnt) : Core :=
  let d := h.desc
  let x := dmaEnd e d.src
  let y := dmaEnd e d.dst
  let k0 := d.posByte (c.dma ch).pos
  let base : DmaRun := { t0 := (c.dma ch).headAt.getD e.tb, started := k0, count := k0 / d.burst, done := k0 }
  let set (c : Core) (r : DmaRun) : Core :=
    let m := c.dma ch
    (c.setDma ch { m with run := some r }).setHead (2 + ch) { h with started := true }
  match resolveEnd c ch d x d.sStep false, resolveEnd c ch d y d.dStep true with
  | .waiting, _ => c
  | _, .waiting => c
  | .refused _, _ => set c { base with abort := some 2 }
  | _, .refused _ => set c { base with abort := some 2 }
  | .at a, .at b => set c { base with srcRes := a, dstRes := b }

/-! ## Bursts -/

/-- Read bytes requested and not yet written (R307): a burst whose reads are not requested yet has none. -/
def DmaRun.inFlight (r : DmaRun) : Nat := ((r.bursts.filter fun b => b.live && !b.wrote).map Burst.len).sum

/-- Units of a bound source that the channel has read and HEAD has not passed stand in `owed`; the bytes left to read. -/
def ringLeft (r : Ring) : Nat := (r.fill - r.owed) * r.unit

/-- Bytes of a bound source that bursts already started have still to read, in whole units. -/
def DmaRun.unread (r : DmaRun) (g : Ring) : Nat := ((r.bursts.filter fun b => !b.live).map fun b => (b.len + g.unit - 1) / g.unit * g.unit).sum

/-- The request condition of the next burst (Table 9-3, R300, R304): with REQ = RING the FILL must cover it beside every burst already started. -/
def requestMet (e : Env) (c : Core) (ch : Nat) (d : Desc) (r : DmaRun) (len : Nat) : Bool :=
  match d.req with
  | 1 => decide (d.reqval + r.count + 1 ≤ (c.scAt d.reqidx).toNat)
  | 2 => match boundRing c ch (dmaEnd e d.src) false with
    | some n => decide (r.unread (c.ringAt n) + len ≤ ringLeft (c.ringAt n))
    | none => true
  | 3 => decide (r.t0 + r.count * d.reqval ≤ e.tb)
  | 4 => decide (1 ≤ (c.dma ch).pcnt)
  | _ => true

/-- Local bytes read for a burst: values and marks by offset in the burst. -/
def readLocal (c : Core) (len : Nat) (byte : Nat → Nat) : List (Nat × Byte) × List (Nat × Bool) :=
  ((List.range len).map fun i => (i, rdByte c.spad.bytes (byte i)),
   ((List.range len).filter fun i => c.spad.poisonAt (byte i)).map fun i => (i, true))

/-- Sending the reads of a remote source: far reads, or read requests on the stream (R300, R302). -/
def sendReads (e : Env) (c : Core) (d : Desc) (a : Word) (k : Nat) : List (Nat × Nat) → Core × List Piece × List Emit
  | [] => (c, [], [])
  | (p, n) :: r =>
    let addr := remoteAddr a d d.sStep p
    let em : Emit := if d.net then .inject d.stream (.readReq addr n) else .svc (e.normChip addr) c.xid (.read addr n)
    let x := sendReads e { c with xid := c.xid + 1 } d a k r
    (x.1, { xid := c.xid, addr := addr, off := p - k, len := n } :: x.2.1, em :: x.2.2)

/-- The source of burst b can be read now: a bound ring holds all its bytes (R190, R300). -/
def sourceReady (e : Env) (c : Core) (ch : Nat) (d : Desc) (b : Burst) : Bool :=
  match boundRing c ch (dmaEnd e d.src) false with
  | some n => decide (b.len ≤ ringLeft (c.ringAt n))
  | none => true

/-- Performing or requesting the reads of burst b (R300, R302, R308). -/
def fillBurst (e : Env) (c : Core) (ch : Nat) (d : Desc) (r : DmaRun) (b : Burst) : Core × Burst × List Emit :=
  let x := dmaEnd e d.src
  match x with
  | .rem a =>
    let s := sendReads e c d a b.first (remotePieces a d d.sStep d.net b.first b.len)
    (s.1, { b with reads := s.2.1, live := true }, s.2.2)
  | _ =>
    match boundRing c ch x false with
    | some n =>
      let g := c.ringAt n
      let at' := (g.head + g.owed) * g.unit
      let l := readLocal c b.len fun i => g.base * 128 + (at' + i) % (g.cap * g.unit)
      let c1 := c.setRing n { g with owed := g.owed + (b.len + g.unit - 1) / g.unit }
      let s := ringSettle e c1 n
      (s.1, { b with data := l.1, pz := l.2, live := true }, s.2)
    | none =>
      let l := readLocal c b.len fun i => localByte c d x d.sStep r.srcRes (b.first + i)
      (c, { b with data := l.1, pz := l.2, live := true }, [])

/-- All reads of a burst have arrived. -/
def Burst.readIn (b : Burst) : Bool := b.live && b.reads.all fun p => p.done || p.bad != 0

/-- The burst has written everything and every write is answered, without a failure. -/
def Burst.complete (b : Burst) : Bool := b.wrote && b.bad == 0 && b.writes.all fun p => p.done && p.bad == 0

/-- Nothing of the burst is still awaited. -/
def Burst.settled (b : Burst) : Bool := b.live && b.readIn && b.wrote && b.writes.all fun p => p.done || p.bad != 0

/-- The bytes of a burst and their marks. -/
def Burst.bytes (b : Burst) : List Byte := (List.range b.len).map fun i => mget 0 b.data i
def Burst.marked (b : Burst) (i : Nat) : Bool := mget false b.pz i

/-- Writing a burst to local bytes, in order. -/
def writeLocal (c : Core) (b : Burst) (byte : Nat → Nat) : Core :=
  let words := ((List.range b.len).filter b.marked).map fun i => byte i / 8
  { c with spad := (List.range b.len).foldl (fun s i => s.wideWrite (byte i) [mget 0 b.data i] fun w => words.contains w) c.spad }

/-- Sending the writes of a remote destination. -/
def sendWrites (e : Env) (c : Core) (d : Desc) (a : Word) (b : Burst) : List (Nat × Nat) → Core × List Piece × List Emit
  | [] => (c, [], [])
  | (p, n) :: r =>
    let addr := remoteAddr a d d.dStep p
    let off := p - b.first
    let bs := (List.range n).map fun i => mget 0 b.data (off + i)
    let pz := markedWords addr.toNat n fun i => b.marked (off + i)
    let em : Emit := if d.net then .inject d.stream (.write addr bs pz)
      else .svc (e.normChip addr) c.xid (.write addr bs pz false .raw)
    let x := sendWrites e { c with xid := c.xid + 1 } d a b r
    (x.1, { xid := c.xid, addr := addr, off := off, len := n } :: x.2.1, em :: x.2.2)

/-- Writing a burst whose reads are in: `none` while a ring has no room; a ring that no longer accepts ends the transfer with cause 5 (R183, R190, R300, R311, R314). -/
def writeBurst (e : Env) (c : Core) (ch : Nat) (d : Desc) (r : DmaRun) (b : Burst) : Option (Core × Burst × List Emit) :=
  let fail := b.reads.find? fun p => p.bad != 0
  match fail with
  | some p => some (c, { b with wrote := true, bad := p.bad }, [])
  | none =>
    if d.psna ∧ !b.pz.isEmpty then some (c, { b with wrote := true, bad := 4 }, [])
    else
      let y := dmaEnd e d.dst
      match y with
      | .rem a =>
        let s := sendWrites e c d a b (remotePieces a d d.dStep d.net b.first b.len)
        some (s.1, { b with wrote := true, writes := s.2.1 }, s.2.2)
      | _ =>
        match boundRing c ch y true with
        | some n =>
          if (c.ringAt n).fsm.st ≠ .on then some (c, { b with wrote := true, bad := 5 }, [])
          else match ringAppend c n b.bytes (markedWords 0 b.len b.marked) false with
            | some c1 => some (c1.ringPulse n, { b with wrote := true }, [])
            | none => none
        | none => some (writeLocal c b fun i => localByte c d y d.dStep r.dstRes (b.first + i), { b with wrote := true }, [])

/-- Writing every burst that may be written, in order (R311). -/
def writeBursts (e : Env) (ch : Nat) (d : Desc) (r : DmaRun) : Core → List Burst → Core × List Burst × List Emit
  | c, [] => (c, [], [])
  | c, b :: rest =>
    if b.wrote then
      let x := writeBursts e ch d r c rest
      (x.1, b :: x.2.1, x.2.2)
    else if b.readIn then
      match writeBurst e c ch d r b with
      | some (c1, b1, em) =>
        let x := writeBursts e ch d r c1 rest
        (x.1, b1 :: x.2.1, em ++ x.2.2)
      | none => (c, b :: rest, [])
    else (c, b :: rest, [])

/-- Completed bursts that DMA.n.BYTES has not counted: their bytes, and the bursts after the count (R321). -/
def countComplete : List Burst → Nat × List Burst
  | [] => (0, [])
  | b :: r =>
    let x := countComplete r
    if b.complete && !b.counted then (b.len + x.1, { b with counted := true } :: x.2) else (x.1, b :: x.2)

/-- Leading complete bursts leave; their bytes are done. -/
def dropComplete : List Burst → Nat × List Burst
  | [] => (0, [])
  | b :: r => if b.complete then let x := dropComplete r; (b.len + x.1, x.2) else (0, b :: r)

/-- The first failed burst, in the order of R299, with its cause. -/
def firstFail (bs : List Burst) : Option (Nat × Nat) :=
  match bs.find? (fun b => b.bad != 0 || b.writes.any fun p => p.bad != 0) with
  | some b => some (b.first, if b.bad != 0 then b.bad else ((b.writes.find? fun p => p.bad != 0).map Piece.bad).getD 0)
  | none => none

/-- The status record (Table 9-7). -/
def statusRecord (e : Env) (d : Desc) (k cause : Nat) : List Word :=
  let (i2, i1, i0, off) := d.idx k
  [pack [(i2, 48, 16), (i1, 32, 16), (i0, 16, 16), (cause, 0, 8)], pack [(e.tb, 32, 32), (d.run - off, 0, 17)]]

/-- The cause and the byte that the status record names: a runtime cause before DMAABORT; the earliest failed burst, else the next burst (R316, Table 9-6). -/
def DmaRun.verdict (r : DmaRun) : Nat × Nat :=
  match firstFail r.bursts with
  | some (k, cause) => (cause, k)
  | none => (r.abort.getD 1, r.started)

/-- The writes of the status record: one of 16 bytes, or two whole registers of kind 2 or 4 (R310, R316). -/
def statusWrites (e : Env) (a : Word) (xid : Nat) (ws : List Word) : List (Nat × Emit) :=
  let bs := ws.flatMap fun w => leBytes 8 w.toNat
  if saKind a = 2 ∨ saKind a = 4 then
    (List.range 2).map fun i =>
      let b := a + BitVec.ofNat 64 (8 * i)
      (xid + i, .svc (e.normChip b) (xid + i) (.write b ((bs.drop (8 * i)).take 8) [] false .raw))
  else [(xid, .svc (e.normChip a) xid (.write a bs [] false .raw))]

/-- Steps 2 to 4 of an abort, once nothing started is awaited (R316). -/
def sendStatus (e : Env) (c : Core) (ch : Nat) (h : QEnt) (r : DmaRun) : Core × List Emit :=
  if r.abort.isSome ∧ r.status.isNone ∧ r.bursts.all Burst.settled then
    let d := h.desc
    let v := r.verdict
    let ws := statusWrites e (d.w 10) c.xid (statusRecord e d v.2 v.1)
    let c1 := (c.trkDropAll h.trk).setHead (2 + ch) { h with trk := [] }
    let c2 := { c1.updRun ch (fun r => { r with abort := some v.1, status := some (ws.map Prod.fst) }) with xid := c.xid + ws.length }
    let s := settleAll e c2
    (s.1, ws.map Prod.snd ++ s.2)
  else (c, [])

/-- Reading for the bursts whose starts are released, in order, while their sources hold the bytes and at most 8 KiB stay read and not written (R300, R307). -/
def feedBursts (e : Env) (ch : Nat) (d : Desc) (r : DmaRun) : Nat → Core → List Burst → Core × List Burst × List Emit
  | _, c, [] => (c, [], [])
  | n, c, b :: rest =>
    if b.live then
      let x := feedBursts e ch d r n c rest
      (x.1, b :: x.2.1, x.2.2)
    else if b.due && decide (n + b.len ≤ 8192) && sourceReady e c ch d b then
      let y := fillBurst e c ch d r b
      let x := feedBursts e ch d r (n + b.len) y.1 rest
      (x.1, y.2.1 :: x.2.1, y.2.2 ++ x.2.2)
    else (c, b :: rest, [])

/-- Carrying a transfer forward: reads that may be made, writes whose reads are in, bursts that are complete, a failure that begins an abort, the entries that go, and the status record. -/
def dmaPump (e : Env) (c : Core) (ch : Nat) : Core × List Emit :=
  match headTransfer c ch, (c.dma ch).run with
  | some h, some r =>
    let d := h.desc
    let g := feedBursts e ch d r r.inFlight c r.bursts
    let w := writeBursts e ch d r g.1 g.2.1
    let n := countComplete w.2.1
    let p := dropComplete n.2
    let r1 := { r with bursts := p.2, done := r.done + p.1, abort := if (firstFail p.2).isSome then some (((firstFail p.2).map Prod.snd).getD 0) else r.abort }
    let m := w.1.dma ch
    let c1 := w.1.setDma ch { m with run := some r1, bytes := m.bytes + n.1 }
    -- the read entry goes when the last byte has been read, the write entry when the last one has been written and answered (R67, R297)
    let allRead := decide (r1.started = d.total) && w.2.1.all Burst.readIn
    let allDone := decide (r1.started = d.total) && p.2.isEmpty
    let gone := if allDone then h.trk else if allRead ∧ 2 ≤ h.trk.length then h.trk.take 1 else []
    let c2 := if gone.isEmpty then c1 else (c1.trkDropAll gone).setHead (2 + ch) { h with trk := h.trk.drop gone.length }
    let s := settleAll e c2
    match headTransfer s.1 ch with
    | some h' =>
      let q := sendStatus e s.1 ch h' r1
      (q.1, g.2.2 ++ w.2.2 ++ s.2 ++ q.2)
    | none => (s.1, g.2.2 ++ w.2.2 ++ s.2)
  | _, _ => (c, [])

/-- The oldest burst that awaits a pace boundary is released (R306, R525). -/
def releaseDue : List Burst → List Burst
  | [] => []
  | b :: rest => if b.due then b :: releaseDue rest else { b with due := true } :: rest

/-- The release of a held burst of a channel. -/
def burstRelease (e : Env) (c : Core) (ch : Nat) : Core × List Emit :=
  dmaPump e (c.updRun ch fun r => { r with bursts := releaseDue r.bursts }) ch

/-- Bursts of a channel held for the core's work period, and how many may be (R523). -/
def heldBursts (c : Core) (ch : Nat) : Nat :=
  c.pace.held.countP fun h => h.act == .burst ch && decide (h.period = c.pace.work)
def burstsPerPeriod (c : Core) (ch : Nat) : Nat := (if ch = 0 then c.pace.b0m1 else c.pace.b1m1) + 1

/-- The next burst may start now (R304, R307, R523). -/
def burstReady (e : Env) (c : Core) (ch : Nat) (h : QEnt) (r : DmaRun) : Bool :=
  let d := h.desc
  let len := min d.burst (d.total - r.started)
  c.engRuns (2 + ch) && r.abort.isNone && decide (r.started < d.total) && requestMet e c ch d r len
    && (if c.pace.mode then decide (heldBursts c ch < burstsPerPeriod c ch)
        else r.bursts.all Burst.live && decide (r.inFlight + len ≤ 8192))

/-- DMA_BURST_START: what is due of earlier bursts, then the next burst when its request condition holds. -/
def burstStart (e : Env) (c0 : Core) (ch : Nat) : Core × List Emit :=
  let p := dmaPump e c0 ch
  let c := p.1
  match headTransfer c ch, (c.dma ch).run with
  | some h, some r =>
    if burstReady e c ch h r then
      let d := h.desc
      let len := min d.burst (d.total - r.started)
      let b : Burst := { idx := r.count, first := r.started, len := len, due := !c.pace.mode, live := false }
      let m := c.dma ch
      let c1 := c.setDma ch { m with run := some { r with started := r.started + len, count := r.count + 1, bursts := r.bursts ++ [b] }
                                     pcnt := if d.req = 4 then m.pcnt - 1 else m.pcnt }
      if c.pace.mode then (c1.hold (.burst ch), p.2)
      else
        let q := dmaPump e c1 ch
        (q.1, p.2 ++ q.2)
    else (c, p.2)
  | _, _ => (c, p.2)

/-! ## Answers -/

/-- The abort cause of an error kind (Table 22-4). -/
def kindCause (kind : Nat) : Nat :=
  match kind with
  | 1 => 2
  | 2 | 3 => 3
  | 4 => 4
  | 5 | 6 => 5
  | 7 | 8 => 6
  | _ => 7

/-- Marking the piece with a transaction number. -/
def markPiece (xid bad : Nat) (ps : List Piece) : List Piece :=
  ps.map fun p => if p.xid = xid then { p with done := bad == 0, bad := bad } else p

/-- Bytes of an arriving read stored into a burst. -/
def Burst.store (b : Burst) (p : Piece) (data : List Byte) (pz : List Nat) : Burst :=
  { b with data := (List.range p.len).foldl (fun m i => mset m (p.off + i) (data.getD i 0)) b.data
           pz := (List.range p.len).foldl (fun m i => if pz.contains ((p.addr.toNat % 8 + i) / 8) then mset m (p.off + i) true else m) b.pz }

/-- A burst after the answer to one of its reads: data, or an abort cause. -/
def Burst.answer (xid bad : Nat) (data : List Byte) (pz : List Nat) (b : Burst) : Burst :=
  match b.reads.find? (fun p => p.xid == xid && !p.done && p.bad == 0) with
  | some p =>
    let b1 := if bad = 0 then b.store p data pz else b
    { b1 with reads := markPiece xid bad b1.reads }
  | none => b

/-- The answer to a read piece of the channel's transfer: data, or an abort cause. -/
def readAnswer (e : Env) (c : Core) (ch xid : Nat) (bad : Nat) (data : List Byte) (pz : List Nat) : Core × List Emit :=
  let c1 := c.updRun ch fun r => { r with bursts := r.bursts.map (Burst.answer xid bad data pz) }
  dmaPump e c1 ch

/-- The answer to a write piece or to the status record. -/
def writeAnswer (e : Env) (c : Core) (ch xid bad : Nat) : Core × List Emit :=
  match (c.dma ch).run with
  | some r =>
    if (r.status.getD []).contains xid then
      (c.updRun ch fun r => { r with status := r.status.map fun l => l.filter (· != xid), statusBad := r.statusBad || bad != 0 }, [])
    else dmaPump e (c.updRun ch fun r => { r with bursts := r.bursts.map fun b => { b with writes := markPiece xid bad b.writes } }) ch
  | none => (c, [])

/-- The oldest piece that awaits an answer: responses on a stream come in the order sent (R389). -/
def oldestPiece (r : DmaRun) (reads : Bool) : Option Piece :=
  (r.bursts.flatMap fun b => if reads then b.reads else b.writes).find? fun p => !p.done && p.bad == 0

/-- The running transfer of a channel sends on stream s - 1 and is answered on s: it has a remote end and NET = 1 (R301, R302). -/
def usesStream (e : Env) (c : Core) (s ch : Nat) : Bool :=
  match headTransfer c ch with
  | some h => h.desc.net && h.desc.stream + 1 == s && (c.dma ch).run.isSome
      && !((dmaEnd e h.desc.src).isLocal && (dmaEnd e h.desc.dst).isLocal)
  | none => false

/-- The channels whose running transfers are answered on stream s. -/
def streamChannels (e : Env) (c : Core) (s : Nat) : List Nat := [0, 1].filter (usesStream e c s)

/-- The channel and the piece that the next answer on stream s is for: the one sent first, whichever channel sent it (R302, R389). -/
def streamPiece (e : Env) (c : Core) (s : Nat) (reads : Bool) : Option (Nat × Piece) :=
  let of (ch : Nat) : Option (Nat × Piece) :=
    if usesStream e c s ch then ((c.dma ch).run.bind fun r => oldestPiece r reads).map fun p => (ch, p) else none
  match of 0, of 1 with
  | some a, some b => if b.2.xid < a.2.xid then some b else some a
  | some a, none => some a
  | none, b => b

/-! ## Completion, abort and enable (R312, R315 to R319) -/

/-- The completion increment can be made: none is asked for, the counter is the core's own, or the hold has room (R312, R522, R523). -/
def incRoom (e : Env) (c : Core) (d : Desc) : Bool := !d.cen || c.incMay e (d.w 8)

/-- DMA_TRANSFER_COMPLETE (R312): not while the channel is parked (R319). -/
def transferComplete (e : Env) (c0 : Core) (ch : Nat) : Core × List Emit :=
  let p := dmaPump e c0 ch
  let c := p.1
  match headTransfer c ch, (c.dma ch).run with
  | some h, some r =>
    let d := h.desc
    if r.abort.isNone ∧ r.started = d.total ∧ r.bursts.isEmpty ∧ incRoom e c d ∧ !(c.dma ch).eng.parked then
      let i := if d.cen then Core.incAt e c (10 + ch) (d.w 8) (d.w 9).toNat else (c, [])
      let c1 := if d.cpulse = 1 then i.1.pulse 0 else if d.cpulse = 2 then i.1.pulse 1 else i.1
      let m := c1.dma ch
      let c2 := (c1.setDma ch { m with run := none, xfers := m.xfers + 1, pos := 0 }).popHead (2 + ch)
      let s := settleAll e c2
      (s.1, p.2 ++ i.2 ++ s.2)
    else (c, p.2)
  | _, _ => (c, p.2)

/-- The abort of the transfer at the head of a channel (R315, Table 9-5). -/
def dmaAbort (e : Env) (c : Core) (ch : Nat) : Core × List Emit :=
  let m := c.dma ch
  match headTransfer c ch with
  | none => (c, [])
  | some h =>
    if m.eng.halt then (c, [])
    else if m.eng.parked then (c.setDma ch { m with abpend := true }, [])
    else
      match m.run with
      | none =>
        let c1 := (c.setDma ch { m with run := some { t0 := e.tb, abort := some 1 } }).setHead (2 + ch) { h with started := true }
        dmaPump e c1 ch
      | some r =>
        if r.abort.isSome ∨ r.started = h.desc.total then (c, [])
        else dmaPump e (c.updRun ch fun r => { r with abort := some 1 }) ch

/-- DMAABORT. -/
def opDmaabort (ra : Nat) : Body := fun e c t => do
  let h ← needHnd ((c.thread t).reg ra) [5]
  let r := dmaAbort e c (hndIndex h)
  return (r.1, .seq, r.2)

/-- DMA_STATUS_WRITTEN: steps 5 and 6 of an abort (R316). -/
def statusWritten (e : Env) (c : Core) (ch : Nat) : Core × List Emit :=
  match headTransfer c ch, (c.dma ch).run with
  | some h, some r =>
    if r.status ≠ some [] then (c, [])
    else
      let cause := r.abort.getD 1
      let k := r.verdict.2
      let w0 := ((statusRecord e h.desc k cause).getD 0 0)
      let m := c.dma ch
      let g := m.eng
      let c1 := (c.setDma ch { m with run := none, serr := r.statusBad, cause := cause, aborts := m.aborts + 1, pos := 0
                                      eng := { g with halt := true } }).popHead (2 + ch)
      let c2 := c1.notify e (2 + ch) { kind := .intr, code := 0x30 + h.desc.ilvl, sub := ch }
      let s := settleAll e c2
      (s.1, (if cause = 1 then [] else [e.errRec 0x05 2 ch (fld w0 0 48) 0]) ++ s.2)
  | _, _ => (c, [])

/-- DMA_RESUME: HALT ends (R317). -/
def dmaResume (c : Core) (ch : Nat) : Core :=
  let m := c.dma ch
  c.setDma ch { m with eng := { m.eng with halt := false } }

/-- DMA_DROP: the queue is discarded and the channel resumes, halted or parked (R317, R320). -/
def dmaDrop (e : Env) (c : Core) (ch : Nat) : Core × List Emit :=
  let m := c.dma ch
  if m.eng.halt ∨ m.eng.parked then engDrop e (c.setDma ch { m with run := none, abpend := false, pos := 0 }) (2 + ch) else (c, [])

/-- DMA_START: the one step of STARTING (R318). -/
def dmaStart (c : Core) (ch : Nat) : Core := let m := c.dma ch; c.setDma ch { m with fsm := m.fsm.startOk }

/-- DMA_ENABLE and DMA_DISABLE: EN written (R318). -/
def dmaEnable (c : Core) (ch : Nat) (v : Bool) : Core := let m := c.dma ch; c.setDma ch { m with fsm := m.fsm.write v }

/-- DMA_STOP_COMPLETE: no transfer runs (R318, Table 9-5). -/
def dmaStop (c : Core) (ch : Nat) : Core :=
  let m := c.dma ch
  if m.run.isNone then c.setDma ch { m with fsm := m.fsm.stopDone } else c

end Sys2Proof.Machine
end

