-- ==== Sys2Proof/Machine/EngineRun.lean ====
section
/-! DEFINITION. Engines at work: starting, completing and parking the commands of a queue, and the PUSH and DROP of a parked engine (spec 02 R52 to R55, 04 R159 to R161, 07 R254 to R266, 08 R272 to R293, 09 R319, R320). -/

namespace Sys2Proof.Machine

/-! ## Starting -/

/-- Started entries at the front of a queue: commands in execution (EXEC). -/
def execCount : List QEnt → Nat
  | [] => 0
  | x :: r => if x.started then execCount r + 1 else 0

/-- Replacing entry i of queue k. -/
def Core.setEnt (c : Core) (k i : Nat) (h : QEnt) : Core :=
  let g := c.eng k
  c.setEng k { g with q := g.q.set i h }

/-- The extent of a ring-relative MXE or VXE entry from its offset, and its direction (R199). -/
def ringExtent (k : Nat) (h : QEnt) : Nat × Bool :=
  let iw := h.iw k
  if k = 0 then
    let m : Mxe := { tags := [(nf iw 22 4, h.tag1)] }
    ((mxeExtent m iw h.cols 0 h.pitch).2, major iw == 0x32)
  else ((vxeExtent iw 0 (h.w 2)).2, vxeStores iw)

/-- An MXE or VXE entry that addresses the scratchpad ring-relatively. -/
def usesRing (k : Nat) (h : QEnt) : Bool :=
  let m := major (h.iw k)
  (if k = 0 then m == 0x31 || m == 0x32 else m == 0x3C) && h.isRing

/-- The interlock of TMOVV and the vector engine, in issue order (R254). -/
def tmovvHeld (c : Core) (k : Nat) (h : QEnt) : Bool :=
  if k = 0 then
    match tmovvReg (h.iw 0) with
    | some v => c.vxe.eng.q.any fun x => decide (x.seq < h.seq) && !x.isCtr 1 && ((vxeReads (x.iw 1)).contains v || (vxeWrites (x.iw 1)).contains v)
    | none => false
  else
    c.mxe.eng.q.any fun x => decide (x.seq < h.seq) &&
      match tmovvReg (x.iw 0) with
      | some v => (vxeReads (h.iw 1)).contains v || (vxeWrites (h.iw 1)).contains v
      | none => false

/-- Entry i may start beside those in execution before it (R259, R272, Table 7-9). -/
def mayJoin (e : Env) (k : Nat) (q : List QEnt) (i : Nat) (h : QEnt) : Bool :=
  if i = 0 then true
  else if k = 0 then decide (i < 2) && (q.take i).all fun x => mxeApart (x.iw 0) (h.iw 0) && !x.isCtr 0
  else decide (i < e.pipes) && (q.take i).all fun x => vxeApart (x.iw 1) (h.iw 1) && !x.isCtr 1

/-- Starting entry i of MXE.Q or VXE.Q once the tracker lets it: its ring resolved first; a refusal halts the engine when the entry is the head (R199, R261, R286). -/
def beginEntry (e : Env) (c : Core) (k i : Nat) (h : QEnt) : Core × List Emit :=
  if usesRing k h then
    let x := ringExtent k h
    match ringResolve c (ringIdx h.wide) (ringOff h.wide) x.1 x.2 with
    | .refused cause => if i = 0 then engHalt e c k cause else (c, [])
    | .waiting => (c, [])
    | .at f => (c.setEnt k i { h with started := true, first := f }, [])
  else (c.setEnt k i { h with started := true }, [])

/-- The tracker holds an entry: its wait is counted once (R54, R66, Table 2-9). -/
def trkHolds (c : Core) (k i : Nat) (h : QEnt) : Core :=
  if h.waited then c else (c.setEnt k i { h with waited := true }).countConfl

/-- ENGINE_COMMAND_START of a queue: the first command not yet started, when nothing holds it (R54, R259, R272, R295). -/
def engineStart (e : Env) (c : Core) (k : Nat) : Core × List Emit :=
  if c.engRuns k then
    let g := c.eng k
    let i := if k ≤ 1 then execCount g.q else 0
    match g.q[i]? with
    | none => (c, [])
    | some h =>
      if h.isCtr k ∨ h.started then (c, [])
      else if c.accConflict h.trk then (trkHolds c k i h, [])
      else if k ≤ 1 then
        if mayJoin e k g.q i h && !tmovvHeld c k h then beginEntry e c k i h else (c, [])
      else
        let ch := k - 2
        if (c.dma ch).fsm.st = .on ∧ (c.dma ch).run.isNone then dmaPump e (dmaBegin e c ch h) ch else (c, [])
  else (c, [])

/-! ## Completing -/

/-- A DMA queue runs only while its channel is ON, or is stopping behind the transfer it runs (R295, R318). -/
def dmaQueueRuns (c : Core) (k : Nat) : Bool := decide (k ≤ 1) || (c.dma (k - 2)).fsm.st == .on

/-- ENGINE_COMMAND_COMPLETE of a queue: the head takes its effect and leaves (R52, R271, R312). -/
def engineComplete (e : Env) (c : Core) (k : Nat) : Core × List Emit :=
  if c.engRuns k then
    let g := c.eng k
    match g.q with
    | [] => (c, [])
    | h :: _ =>
      if h.isCtr k then (if dmaQueueRuns c k then headCtr e c k h else (c, []))
      else if !h.started then (c, [])
      else if k = 0 then settleAll e ((mxeRun e c h (mxeFrom h g.srow) (mxeRows h)).popHead 0)
      else if k = 1 then vxeComplete e c h false
      else transferComplete e c (k - 2)
  else (c, [])

/-! ## Parking (R159 to R161, R262 to R264, R293, R319) -/

/-- Clearing the start of every entry behind a head that parks: their progress is discarded (R263, R293). -/
def unstartRest : List QEnt → List QEnt
  | [] => []
  | h :: r => h :: r.map fun x => { x with started := false }

/-- The head stops at the last row boundary of Table 7-11 that is not beyond row `row`, with a row still to do; a command that has no such boundary completes first (R262, R293). -/
def parkHead (e : Env) (c : Core) (k row : Nat) : Core × List Emit :=
  let g := c.eng k
  match g.q with
  | [] => (c, [])
  | h :: _ =>
    if h.isCtr k || !h.started || g.halt then (c, [])
    else if k = 0 then
      let n := mxeRows h
      let r0 := mxeFrom h g.srow
      match mxeParkStep h with
      | none => settleAll e ((mxeRun e c h r0 n).popHead 0)
      | some st =>
        -- a boundary that leaves a row to do, at or after the head's own start
        let r := max r0 (min row (n - 1) / st * st)
        let c1 := mxeRun e c h r0 r
        (c1.setEng 0 { (c1.eng 0) with srow := r }, [])
    else if k = 1 then
      if vxeIsRed (h.iw 1) then
        let n := vxeRowCount h
        let r := max g.srow (min row (n - 1))
        if r = g.srow then (c, [])
        else
          let o := vredRows c h g.srow r
          let te : Flags := BitVec.ofNat 5 (fld (h.w 0) 48 5)
          match (if o.ieee then o.trapLane te else none) with
          | some l => vxeTrap e c h o l (o.raised &&& te)
          | none =>
            let c1 := { c with vxe := c.vxe.commit (nf (h.iw 1) 21 5) o }
            (c1.setEng 1 { (c1.eng 1) with srow := r }, [])
      else vxeComplete e c h false
    else (c, [])

/-- ENGINE_PARKED: an engine asked to park reaches its boundary; `row` is the row boundary that the head reaches (Table 7-11, R293, R319). -/
def engineParked (e : Env) (c : Core) (k row : Nat) : Core × List Emit :=
  let g := c.eng k
  if c.held ∨ !g.parkReq ∨ g.parked then (c, [])
  else if k ≤ 1 then
    let x := parkHead e c k row
    -- a VXE completes a second command in execution once the first has completed (R293)
    let y := if k = 1 ∧ (x.1.eng 1).q.length < g.q.length then parkHead e x.1 1 row else (x.1, [])
    let g1 := y.1.eng k
    -- a second command whose head has completed starts again from its beginning too (R263)
    let q := if k = 0 ∧ g1.q.length < g.q.length then g1.q.map fun z => { z with started := false } else unstartRest g1.q
    (y.1.setEng k { g1 with q := q, parked := true }, x.2 ++ y.2)
  else
    let ch := k - 2
    -- a transfer all of whose bursts have started has no boundary left: it completes (R319)
    let p := transferComplete e c ch
    let m := p.1.dma ch
    match m.run with
    | none => (p.1.setEng k { (p.1.eng k) with parked := true }, p.2)
    | some r =>
      let d := ((headTransfer p.1 ch).map QEnt.desc).getD []
      if r.bursts.isEmpty ∧ r.abort.isNone ∧ r.started < d.total then
        let c1 := p.1.setDma ch { m with pos := d.posWord r.started }
        (c1.setEng k { (c1.eng k) with parked := true }, p.2)
      else (p.1, p.2)

/-- An engine is asked to park, or let go (R74, R159): a running transfer continues from POS, and an abort that waited for the unpark takes effect (R319, Table 9-5). -/
def engPark (c : Core) (k : Nat) : Core := let g := c.eng k; c.setEng k { g with parkReq := true }

def engUnpark (e : Env) (c : Core) (k : Nat) : Core × List Emit :=
  let g := c.eng k
  let c1 := c.setEng k { g with parkReq := false, parked := false }
  if k ≤ 1 then (c1, [])
  else
    let ch := k - 2
    let m := c1.dma ch
    let c2 := match headTransfer c1 ch, m.run with
      | some h, some r =>
        if g.parked then
          let k0 := h.desc.posByte m.pos
          c1.setDma ch { m with run := some { r with started := k0, done := k0, count := k0 / h.desc.burst } }
        else c1
      | _, _ => c1
    if (c2.dma ch).abpend then dmaAbort e (c2.setDma ch { (c2.dma ch) with abpend := false }) ch else (c2, [])

/-! ## PUSH (R266, R293, R320) -/

/-- The instruction of a staging record belongs to the queue. -/
def pushFits (k : Nat) (qw : List Word) : Bool :=
  let h : QEnt := { qw := qw }
  let iw := h.iw k
  let ctr := major iw == 0x3E && decide (qQ iw = k + 1)
  if k = 0 then decide (0x30 ≤ major iw ∧ major iw ≤ 0x36) || ctr
  else if k = 1 then decide (0x38 ≤ major iw ∧ major iw ≤ 0x3D) || ctr
  else (major iw == 0x3F && decide (iw / 2 ^ 22 % 16 = 4)) || ctr

/-- The ranges that a staging record declares: its own extent, or the ring's. -/
def pushRanges (e : Env) (c : Core) (k : Nat) (qw : List Word) : List (Bool × Nat × Nat × Bool) :=
  let h : QEnt := { qw := qw }
  let iw := h.iw k
  let m := major iw
  if h.isCtr k then []
  else if 2 ≤ k then dmaRanges e c h.desc
  else if (if k = 0 then m == 0x31 || m == 0x32 else m == 0x3C) then
    let x := ringExtent k h
    if h.isRing then
      let r := c.ringAt (ringIdx h.wide)
      [(true, r.base * 128, r.size * 128, x.2)]
    else
      let ext := if k = 0 then mxeExtent { tags := [(nf iw 22 4, h.tag1)] } iw h.cols h.wide h.pitch else vxeExtent iw h.wide (h.w 2)
      [(true, ext.1.toNat, ext.2, x.2)]
  else []

/-- Words of a queue entry record of queue k (Tables 7-13, 8-11, 9-9). -/
def recordWords (k : Nat) : Nat := if k ≤ 1 then 4 else 13

/-- PUSH on a parked engine (R265, R266). -/
def enginePush (e : Env) (c : Core) (k : Nat) : Core :=
  if (c.eng k).parked then
    let c1 := engPush c k (recordWords k) (pushFits k) (pushRanges e c k)
    if k ≤ 1 then c1 else c1.noteHead e (k - 2)
  else c

/-- DROP on a parked MXE or VXE, or on a VXE halted by an IEEE trap (R266, R291, R293). -/
def engineDrop (e : Env) (c : Core) (k : Nat) : Core × List Emit :=
  let g := c.eng k
  if g.parked ∨ (k = 1 ∧ g.halt ∧ g.hcause = 3) then engDrop e c k else (c, [])

/-! ## Stopping the core's own units for CORE.CTL.PARK and debug halts -/

/-- CORE.STAT.PARKED (R74). -/
def Core.allParked (e : Env) (c : Core) : Bool :=
  (List.range e.nthr).all (fun t => (c.thread t).st == .parked)
    && (List.range 4).all fun k => let g := c.eng k; g.parked || g.q.isEmpty

end Sys2Proof.Machine
end

