-- ==== Sys2Proof/Machine/Far.lean ====
section
/-! DEFINITION. Far accesses of threads: LD.S, ST.S, their answers, and the far requests that a core answers (spec 03 R113 to R115, 13 R420 to R429, 10 Table 10-2). -/

namespace Sys2Proof.Machine

/-- The far access fault with an error kind (R114, R115). -/
def evFarKind (kind : Nat) (a : Word) : Ev := { code := 0x21, sub := kind, addr := a }

/-- The fields that make LD.S or ST.S illegal (Table 3-12). -/
def farIllegal (store : Bool) (sz ty : Nat) : Bool :=
  if store then decide (ty ≠ 0) else if sz = 3 then decide (ty = 3) else decide (1 < ty)

/-- The tag with which a stored word leaves its scratchpad: PTR, HND and CODE arrive as RAW (Table 3-12). -/
def farTag (t : Tag) : Tag := if t = .ptr ∨ t = .hnd ∨ t = .code then .raw else t

/-- The register that LD.S delivers from an arriving word of 2^sz bytes (Table 3-12). An LD.S narrower than a word takes a PTR, HND or CODE word, which arrives as RAW, like a RAW word: the table's row for narrow accesses speaks of INT and RAW only, and this is the model's choice (log entry 109). -/
def farResult (sz ty : Nat) (v : Nat) (t0 : Tag) (a : Word) : Except Ev TWord :=
  let t := farTag t0
  let bad : Ev := { code := 0x15, sub := t.toNat, addr := a }
  let w : Word := BitVec.ofNat 64 v
  if t = .poison then .ok ⟨w, .poison⟩
  else if t = .empty then .error bad
  else if sz = 3 then
    if ty = 0 then .ok ⟨w, t⟩
    else
      let want : Tag := if ty = 1 then .int else .flt
      if t = want ∨ t = .raw then .ok ⟨w, want⟩ else .error bad
  else if t = .int ∨ t = .raw then
    .ok (tint (if ty = 1 then ofInt (sextNat v (8 * 2 ^ sz)) else w))
  else .error bad

/-- The address of a far access, whose displacement never carries out of bits [47:0] (R113). Of a sum outside [0, 2^48), which is the bounds fault, XADDR shows the sum modulo 2^48 beside CHIP and KIND: R113 does not say what it shows, and this is the model's choice (log entry 109). -/
def farAddress (a : Word) (disp : Int) : Word × Bool :=
  let o := (saOff a : Int) + disp
  (mkSa (saChip a) (saKind a) (o % 281474976710656).toNat, decide (0 ≤ o) && decide (o < 281474976710656))

/-- The checks of a far access in the order of R98: privilege, the source register, alignment, bounds, far access. -/
def farCheck (e : Env) (th : Thread) (store : Bool) (rd ra sz : Nat) (disp : Int) : Except Ev (Word × TWord) := do
  let p ← needTag (th.reg ra) [.sptr]
  let x := farAddress p disp
  let a := x.1
  let k := saKind a
  if !th.smode && (k == 2 || k == 4) then .error (evPriv a)
  else
    let v := th.reg rd
    let _ ← if store then needTag v (if sz = 3 then [.int, .flt, .raw, .sptr, .poison] else [.int, .raw]) else .ok 0
    if saOff a % 2 ^ sz ≠ 0 then .error (evAlign a)
    else if !x.2 then .error (evBounds a)
    else if 5 ≤ k ∨ ((k = 2 ∨ k = 4) ∧ sz ≠ 3) then .error (evFarKind 0 a)
    else if k = 1 ∧ isRingForm (fld a 0 24) ∧ (e.localOff a).isNone then .error (evFarKind 0 a)
    else return (a, v)

/-- The tracker range of a far access: local bytes, the whole ring, or a system address (R64, R199). -/
def farRange (e : Env) (c : Core) (store : Bool) (a : Word) (sz : Nat) : Bool × Nat × Nat × Bool :=
  match e.localOff a with
  | some o =>
    if isRingForm o then
      let r := c.ringAt (ringIdx o)
      (true, r.base * 128, r.size * 128, store)
    else (true, o, 2 ^ sz, store)
  | none => (false, (e.normChip a).toNat, 2 ^ sz, store)

/-- The byte that a far access made local reaches, a wait, or the fault of a refusal (R64, R199). -/
def farLocal (e : Env) (c : Core) (store : Bool) (a : Word) (o sz : Nat) : Except Ev (Option Nat) :=
  if isRingForm o then
    match ringResolve c (ringIdx o) (ringOff o) (2 ^ sz) store with
    | .refused _ => .error (evFarKind 1 a)
    | .waiting => .ok none
    | .at f => .ok (some f)
  else if e.spadBytes < o + 2 ^ sz then .error (evFarKind 1 a) else .ok (some o)

/-- A far access made local: read or written in its own step (R64, R109). -/
def farHere (c : Core) (t : Nat) (store : Bool) (rd sz ty : Nat) (a : Word) (v : TWord) (b : Nat) : Res :=
  if store then
    match storeWord c.spad sz b v with
    | .error ev => .error { ev with addr := a }
    | .ok s => .ok ({ c with spad := s }, .seq, [])
  else
    match farResult sz ty (rdNat c.spad.bytes b (2 ^ sz)) (c.spad.tagAt b) a with
    | .error ev => .error ev
    | .ok w => .ok (c.setReg t rd w, .seq, [])

/-- A far access leaves the core: a posted write, or a read that its thread awaits (R114, R115, R420). -/
def farSend (e : Env) (c : Core) (t : Nat) (store : Bool) (rd sz ty : Nat) (a : Word) (v : TWord) (i : Nat) : Res :=
  let na := e.normChip a
  let c1 := { c with xid := c.xid + 1 }
  if store then
    let w : FarWrite := { xid := c.xid, issuer := t, scope := e.scopeOf na, addr := na, trk := some i }
    let pz : List Nat := if v.tag = .poison then [0] else []
    .ok ({ c1 with writes := c1.writes ++ [w] }, .seq,
      [.svc na c.xid (.write na (leBytes (2 ^ sz) v.val.toNat) pz true (if sz = 3 then v.tag else .raw))])
  else .ok (c1, .wait .farLoad (.farData rd sz ty na c.xid i), [.svc na c.xid (.read na (2 ^ sz))])

/-- LD.S and ST.S (R113 to R115); `ent` is the entry that the access already holds while it waits. -/
def opFar (store : Bool) (rd ra sz ty : Nat) (disp : Int) (ent : Option Nat) : Body := fun e c t => do
  let (a, v) ← farCheck e (c.thread t) store rd ra sz disp
  let r := farRange e c store a sz
  let op (i : Option Nat) : WaitOp := .far store rd ra sz ty disp i
  if ent.isNone ∧ c.trkFree < 1 then return (c, .wait .trkFull (op none), [])
  let (c1, i) := match ent with
    | some i => (c, i)
    | none => c.trkTake r.1 r.2.1 r.2.2.1 r.2.2.2
  if c1.entConflict i then
    return (c1.countConfl, .wait .conflict (op (some i)), [])
  match e.localOff a with
  | some o =>
    match ← farLocal e c1 store a o sz with
    | none => return (c1, .wait .conflict (op (some i)), [])
    | some b => farHere (c1.trkDrop i) t store rd sz ty a v b
  | none => farSend e c1 t store rd sz ty a v i

/-- FAR_LOAD_RESPONSE: the answer to the LD.S of thread t (R114); it waits while the thread is parked (R45). -/
def farLoadAnswer (e : Env) (c : Core) (t xid : Nat) (body : SvcBody) : Core × List Emit :=
  let th := c.thread t
  match th.st, th.waitOp with
  | .wait, some (.farData rd sz ty a x i) =>
    if x ≠ xid then (c, [])
    else
      let c1 := c.trkDrop i
      match body with
      | .readResp data tag _ =>
        match farResult sz ty (leNat data) tag a with
        | .ok w => c.settleAfter e (finish e (c1.setReg t rd w) t .seq)
        | .error ev => c.settleAfter e (raise e c1 t ev)
      | .err kind => c.settleAfter e (raise e c1 t (evFarKind kind a))
      | _ => (c, [])
  | _, _ => (c, [])

/-! ## Answers to writes and increments (R67, R115, R429, Table 10-2) -/

/-- The record of an increment that drew an error response (class 0x20). -/
def incRecord (e : Env) (kind : Nat) (a : Word) : Emit :=
  e.errRec 0x20 2 kind (saChip a * 2 ^ 36 + saLcid a * 2 ^ 24 + (saCounter a).getD 0) 0

/-- An error response to an increment: the issuer's notice and the record (Table 10-2); a loss is the CC's own affair (`State.incLost`). -/
def incFailed (e : Env) (c : Core) (w : FarWrite) (kind : Nat) : Core × List Emit :=
  let ev : Ev := { evFarKind kind w.addr with imp := decide (w.issuer < 8) }
  let c1 :=
    if w.issuer < 8 then c.updThread w.issuer fun th => th.deliver ev
    else if w.issuer < 12 then c.notify e (w.issuer - 8) ev else c
  (c1, [incRecord e kind w.addr])

/-- An acknowledgement (`none`) or an error response to a write, an increment or a status record with transaction number `xid`. -/
def writeAnswered (e : Env) (c : Core) (xid : Nat) (err : Option Nat) : Core × List Emit :=
  match c.writes.find? (fun w => w.xid == xid && !w.failed) with
  | some w =>
    let gone := { c with writes := c.writes.filter fun x => x.xid != xid }
    let rel (c : Core) : Core := match w.trk with | some i => c.trkDrop i | none => c
    match err with
    | none => settleAll e (rel gone)
    | some kind =>
      if w.inc then incFailed e gone w kind
      else
        let c1 := rel { c with writes := c.writes.map fun x => if x.xid = xid then { x with failed := true } else x }
        settleAll e (c1.updThread w.issuer fun th => th.deliver { evFarKind kind w.addr with imp := true })
  | none =>
    let bad := match err with | none => 0 | some k => kindCause k
    let r := writeAnswer e c 0 xid bad
    let s := writeAnswer e r.1 1 xid bad
    (s.1, r.2 ++ s.2)

/-- A read answer that is not a thread's: it goes to the channel whose piece it names. -/
def readAnswered (e : Env) (c : Core) (xid bad : Nat) (data : List Byte) (pz : List Nat) : Core × List Emit :=
  let r := readAnswer e c 0 xid bad data pz
  let s := readAnswer e r.1 1 xid bad data pz
  (s.1, r.2 ++ s.2)

/-! ## Stream answers (R302, R389) -/

/-- A read data item on stream s: it answers the oldest outstanding read sent on its partner. -/
def streamReadData (e : Env) (c : Core) (s status : Nat) (data : List Byte) (pz : List Nat) : Core × List Emit :=
  match streamPiece e c s true with
  | some (ch, p) => readAnswer e c ch p.xid status data pz
  | none => (c, [])

/-- A write response item on stream s. -/
def streamWriteResp (e : Env) (c : Core) (s status : Nat) : Core × List Emit :=
  match streamPiece e c s false with
  | some (ch, p) => writeAnswer e c ch p.xid status
  | none => (c, [])

/-! ## What a core answers to others: kind 1 (R413, Table 3-12, R542) -/

/-- A far read of this core's scratchpad. -/
def spadRead (e : Env) (c : Core) (o n : Nat) : SvcBody :=
  if isRingForm o ∨ e.spadBytes < o + n then .err 1
  else
    let w := o / 8 * 8
    .readResp (c.spad.wideRead o n) (if n = 8 ∧ o % 8 = 0 then c.spad.tagAt o else c.spad.tagAt w)
      (markedWords o n fun i => c.spad.poisonAt (o + i))

/-- A far write of this core's scratchpad: a scalar store by its tag rule, any other a wide write. -/
def spadWrite (e : Env) (c : Core) (o : Nat) (data : List Byte) (pz : List Nat) (narrow : Bool) (tag : Tag) : Core × SvcBody :=
  let n := data.length
  if isRingForm o ∨ e.spadBytes < o + n then (c, .err 1)
  else if narrow then
    if n = 8 ∧ o % 8 = 0 then ({ c with spad := c.spad.setWord o ⟨BitVec.ofNat 64 (leNat data), tag⟩ }, .ack)
    else
      let t := c.spad.tagAt o
      if t = .raw ∨ t = .int ∨ t = .empty then ({ c with spad := c.spad.setPart o n (leNat data) }, .ack) else (c, .err 9)
  else ({ c with spad := c.spad.wideWrite o data fun w => pz.contains (w - o / 8) }, .ack)

end Sys2Proof.Machine
end

