-- ==== Sys2Proof/Machine/Threads.lean ====
section
/-! DEFINITION. Thread and core control: START, HALT, PARK, UNPARK, core parking and debug halt, the watchdog, the timer, interrupts and asynchronous events (spec 02 R43 to R46, R74 to R77; 04 R130 to R163, R683; 17 R534). -/

namespace Sys2Proof.Machine

/-- The thread enters RUN from IDLE, HALT or PARKED: its watchdog window restarts (R163). -/
def Thread.restartDog (th : Thread) (tb : Nat) : Thread := { th with wdtFrom := tb, wdtFired := false }

/-- THR_START: HALT to RUN at the entry address (Table 2-2); a thread of TMASK before T0 waits at its first instruction (R526). -/
def thrStart (e : Env) (c : Core) (t : Nat) : Core :=
  let th := c.thread t
  if c.held ∨ e.nthr ≤ t ∨ th.st ≠ .halt then c
  else
    let th1 := { th with pc := th.entry, smode := th.startS, st := .run, wcause := .none, waitOp := none
                         slot := none, shadow := false, bmov := none, haltPend := false }.restartDog e.tb
    let early := c.pace.mode && c.pace.tmask.getLsbD t && decide (e.tb < c.pace.t0)
    c.setThread t (if early then { th1 with st := .wait, wcause := .pace, waitOp := some .paceStart } else th1)

/-- THR_HALT (R44): at once at a boundary where an interrupt could be taken, else pending. -/
def thrHalt (e : Env) (c : Core) (t : Nat) : Core :=
  let th := c.thread t
  let now (c : Core) : Core := (c.abandon t).updThread t fun th => { th with st := .halt, haltPend := false }
  if c.held ∨ e.nthr ≤ t then c
  else
    let free := th.slot.isNone && !th.shadow
    match th.st with
    | .idle => now c
    | .run => if free then now c else c.setThread t { th with haltPend := true }
    | .wait => if free && th.wcause != .farLoad && th.wcause != .sendRead then now c else c.setThread t { th with haltPend := true }
    | _ => c

/-- Parking one thread (Table 2-2); `bit` when CORE.CTL.PARK parks it. -/
def thrParkBy (bit : Bool) (c : Core) (t : Nat) : Core :=
  let th := c.thread t
  if th.st = .parked then c else c.setThread t { th with st := .parked, prior := th.st, parkedByBit := bit }

/-- THR_PARK. -/
def thrPark (e : Env) (c : Core) (t : Nat) : Core := if c.held ∨ e.nthr ≤ t then c else thrParkBy false c t

/-- Unparking to PRIOR (Table 2-2, R163). -/
def thrRelease (e : Env) (c : Core) (t : Nat) : Core :=
  let th := c.thread t
  let th1 := { th with st := th.prior, parkedByBit := false }
  c.setThread t (if th.prior = .run then (th1.restartDog e.tb).boundary else th1)

/-- THR_UNPARK. -/
def thrUnpark (e : Env) (c : Core) (t : Nat) : Core :=
  if c.held ∨ e.nthr ≤ t ∨ (c.thread t).st ≠ .parked then c else thrRelease e c t

/-- CORE_PARK: every enabled thread and every engine (Table 2-2, R74). -/
def corePark (e : Env) (c : Core) : Core :=
  if c.held then c
  else
    let c1 := (List.range e.nthr).foldl (thrParkBy true) { c with park := true }
    (List.range 4).foldl engPark c1

/-- CORE_UNPARK: the threads that the bit parked, and the engines (Table 2-2, R43). -/
def coreUnpark (e : Env) (c : Core) : Core × List Emit :=
  if c.held then (c, [])
  else
    let c1 := (List.range e.nthr).foldl (fun c t => if (c.thread t).st = .parked ∧ (c.thread t).parkedByBit then thrRelease e c t else c)
      { c with park := false, debug := false }
    (List.range 4).foldl (fun acc k => let r := engUnpark e acc.1 k; (r.1, acc.2 ++ r.2)) (c1, [])

/-- The CC's notice to every enabled thread of a core: job stop and debug attach (Table 4-2). -/
def ccNotice (e : Env) (c : Core) : Core :=
  if c.held then c else (List.range e.nthr).foldl (fun c t => c.updThread t fun th => { th with xpend := th.xpend ||| 16 }) c

/-- DEBUG_HALT: the CC notifies every thread (Table 4-2), and threads and engines park; the threads return by THR.n.CMD.UNPARK (Table 2-2, R159). -/
def debugHalt (e : Env) (c : Core) : Core :=
  if c.held then c
  else
    let c1 := (List.range e.nthr).foldl (thrParkBy false) { ccNotice e c with debug := true }
    (List.range 4).foldl engPark c1

/-- A write of THR.n.CMD: with one bit set, that command (R76). -/
def thrCmd (e : Env) (c : Core) (t : Nat) (v : Nat) : Core :=
  if v = 1 then thrStart e c t else if v = 2 then thrHalt e c t
  else if v = 4 then thrPark e c t else if v = 8 then thrUnpark e c t else c

/-! ## Watchdog, timer and interrupts -/

/-- The watchdog's window has ended (R163). -/
def dogEnded (e : Env) (th : Thread) : Bool :=
  th.wdtEn && decide (th.wdtInt ≠ 0) && !th.wdtFired && decide (th.wdtFrom + 1024 * th.wdtInt.toNat ≤ e.tb)

/-- WATCHDOG_EXPIRY: the fault is raised in RUN or WAIT; in any other state nothing happens (R163). -/
def watchdogExpiry (e : Env) (c : Core) (t : Nat) : Core :=
  let th := c.thread t
  if c.held ∨ e.nthr ≤ t ∨ dogEnded e th = false then c
  else if th.st = .run ∨ th.st = .wait then
    c.setThread t ({ th with wdtFired := true }.deliver { code := 0x23, async := true })
  else c.setThread t { th with wdtFired := true }

/-- TIMER_COMPARE_FIRE (R534). -/
def timerFire (e : Env) (c : Core) (t : Nat) : Core :=
  let th := c.thread t
  if c.held ∨ e.nthr ≤ t ∨ !th.tmrEn ∨ e.tb < th.tmrTick then c
  else c.setThread t { th with tmrEn := false, xpend := th.xpend ||| 4 }

/-- The level of the interrupt of XPEND bit b (Table 4-2). -/
def Thread.intrLevel (th : Thread) (b : Nat) : BitVec 3 :=
  match b with
  | 0 => th.dmaLvl0
  | 1 => th.dmaLvl1
  | 2 => th.tmrl
  | 3 => th.swil
  | _ => th.ccl

/-- The pending interrupts as events (Table 4-4). -/
def Thread.interrupts (th : Thread) : List Ev :=
  ((List.range 5).filter fun b => th.xpend.getLsbD b).map fun b =>
    { kind := .intr, code := 0x30 + (th.intrLevel b).toNat, sub := b, async := true }

/-- An asynchronous event may be taken under the thread's mask (R136, R683). -/
def Thread.mayTake (th : Thread) (ev : Ev) : Bool :=
  decide (th.ml < ev.level) && ((ev.kind == .fault && (ev.async || ev.imp)) || (th.arm && !th.dfh))

/-- Event a comes before event b: the higher level, then the lower code, then the lower XPEND bit (R683). -/
def Ev.beats (a b : Ev) : Bool :=
  decide (b.level < a.level) || (a.level == b.level && (decide (a.code < b.code) || (a.code == b.code && a.kind == .intr && decide (a.sub < b.sub))))

/-- The event to take among those that may be taken. -/
def bestEvent : List Ev → Option Ev
  | [] => none
  | x :: r =>
    match bestEvent r with
    | none => some x
    | some y => if y.beats x then some y else some x

/-- The boundary at which the thread stands lets an asynchronous event be taken (R147, R151, Table 4-5). -/
def Thread.interruptible (th : Thread) : Bool :=
  th.slot.isNone && !th.shadow &&
    (th.st == .run || (th.st == .wait && th.wcause != .farLoad && th.wcause != .sendRead && th.wcause != .pace))

/-- Removing the first event equal to one. -/
def dropEvent (ev : Ev) : List Ev → List Ev
  | [] => []
  | x :: r => if x = ev then r else x :: dropEvent ev r

/-- Removing the failed write that an imprecise fault reports (R429). -/
def dropFailed (t : Nat) (a : Word) : List FarWrite → List FarWrite
  | [] => []
  | w :: r => if w.failed ∧ w.issuer = t ∧ w.addr = a then r else w :: dropFailed t a r

/-- ASYNC_EVENT_TAKEN (R136, R156, R157, R683). -/
def asyncTaken (e : Env) (c : Core) (t : Nat) : Core × List Emit :=
  let th := c.thread t
  if c.held ∨ e.nthr ≤ t ∨ th.interruptible = false then (c, [])
  else
    match bestEvent ((th.notices ++ th.interrupts).filter th.mayTake) with
    | none => (c, [])
    | some ev =>
      let th1 := match ev.kind with
        | .intr => { th with xpend := th.xpend &&& ~~~(BitVec.ofNat 5 (2 ^ ev.sub)) }
        | _ => { th with notices := dropEvent ev th.notices }
      let c1 := c.setThread t th1
      let c2 := if ev.imp then { c1 with writes := dropFailed t ev.addr c1.writes } else c1
      takeEntry e c2 t ev th.pc false

/-- An entry of the exception block may be written: by its own thread, or by others while it is in HALT or PARKED (R162). -/
def excOpen (c : Core) (n : Nat) (who : Option Nat) : Bool :=
  who == some n || (c.thread n).st == .halt || (c.thread n).st == .parked

/-- XSWI_RAISE and XPEND_CLEAR: from any agent at any time (R162). -/
def xswiRaise (c : Core) (n : Nat) : Core := c.updThread n fun th => { th with xpend := th.xpend ||| 8 }
def xpendClear (c : Core) (n : Nat) (v : Word) : Core := c.updThread n fun th => { th with xpend := th.xpend &&& ~~~(v.setWidth 5) }

/-- XST_WRITE: the writable fields (R140, after Table 4-6). -/
def xstWrite (c : Core) (n : Nat) (who : Option Nat) (v : Word) : Core :=
  if excOpen c n who then
    c.updThread n fun th => { th with ml := BitVec.ofNat 3 (fld v 12 3), pml := BitVec.ofNat 3 (fld v 8 3), pmode := bit v 7, ds := bit v 6 }
  else c

/-- XWDT_WRITE: the window restarts (R163). -/
def xwdtWrite (e : Env) (c : Core) (n : Nat) (who : Option Nat) (v : Word) : Core :=
  if excOpen c n who then
    c.updThread n fun th => { th with wdtEn := bit v 63, wdtInt := BitVec.ofNat 32 (fld v 0 32) }.restartDog e.tb
  else c

end Sys2Proof.Machine
end

