-- ==== Sys2Proof/Machine/Regs.lean ====
section
/-! DEFINITION. The core I/O space: what a read of each register returns and what a write does (spec 02 Tables 2-6 to 2-9, and the register tables of chapters 04, 05, 07 to 11 and 17). -/

namespace Sys2Proof.Machine

/-- A one-bit field as a word's bit. -/
def bitAt (b : Bool) (k : Nat) : Nat × Nat × Nat := (b2n b, k, 1)

/-! ## U-mode access (R73, R180, R268, R294, R321, R349, R375, R533) -/

/-- A write in U mode at this offset raises the privileged instruction fault; `t` is the writing thread. At a reserved offset of the CORE, THR or tracker block, and in THR.4 to THR.7 of an M-core, R72 has a write ignored without a fault and R73 has a U-mode write to these blocks fault: the model's choice is the fault (log entry 109). -/
def uWriteDenied (vcore : Bool) (t off : Nat) : Bool :=
  if off < 0x800 then true
  else if off < 0x980 then true
  else if 0x1000 ≤ off ∧ off < 0x1200 then decide (off % 32 / 8 = 0 ∨ off % 32 / 8 = 3)
  else if 0x1400 ≤ off ∧ off < 0x1C00 then decide (off % 32 < 24)
  else if 0x1C00 ≤ off ∧ off < 0x2400 then decide (off % 32 < 16)
  else if 0x2400 ≤ off ∧ off < 0x2600 then decide (off % 256 < 0xB0)
  else if 0x2600 ≤ off ∧ off < 0x2700 then
    let o := off - 0x2600
    !vcore && !(decide (8 ≤ o ∧ o < 16) || decide (0x20 ≤ o ∧ o < 0x30) || decide (0x80 ≤ o))
  else if 0x2700 ≤ off ∧ off < 0x2800 then
    let o := off - 0x2700
    decide (o < 0x80) && !(decide (8 ≤ o ∧ o < 16) || decide (0x20 ≤ o ∧ o < 0x38))
  else if 0x2800 ≤ off ∧ off < 0x2900 then true
  else if 0x2900 ≤ off ∧ off < 0x2A00 then
    let o := off - 0x2900
    decide (o < 0x30) || decide (0x40 ≤ o ∧ o < 0x80)
  else if 0x2A00 ≤ off ∧ off < 0x2B00 then
    let o := off - 0x2A00
    decide (o < 16) || decide (0x80 ≤ o ∧ o < 0xC0) || (decide (0x40 ≤ o ∧ o < 0x80) && decide ((o - 0x40) / 8 ≠ t))
  else if 0x2B00 ≤ off ∧ off < 0x2C00 then decide (off - 0x2B00 < 0x58)
  else if 0x3000 ≤ off ∧ off < 0x4000 then decide (off - 0x3000 < 0x880)
  else decide (0x8000 ≤ off)

/-- A read in U mode is denied at 0x8000 and above (R73). -/
def uReadDenied (off : Nat) : Bool := decide (0x8000 ≤ off)

/-! ## Reading -/

/-- CORE block (Table 2-7). -/
def readCore (e : Env) (c : Core) (o : Nat) : Word :=
  let q (k : Nat) : Nat := (c.eng k).q.length
  match o with
  | 0x00 => pack [bitAt e.standin 33, bitAt e.vcore 32, (e.pcol, 28, 4), (e.row, 25, 3), (e.cluster, 19, 6), (e.lcid, 0, 12)]
  | 0x08 => pack [(e.nthr, 28, 4), (e.pipes, 24, 4), (e.pipes, 20, 4), bitAt (!e.vcore) 19, (e.spadBytes / 1024, 0, 16)]
  | 0x10 => pack [bitAt c.dispen 2, bitAt c.park 1, bitAt c.lock 0]
  | 0x18 =>
    let busy (k : Nat) : Bool := decide (q k ≠ 0)
    let ep (k : Nat) : Bool := (c.eng k).parked
    pack [bitAt (busy 0) 11, bitAt (busy 1) 10, bitAt (busy 2) 9, bitAt (busy 3) 8,
      bitAt (ep 0) 7, bitAt (ep 1) 6, bitAt (ep 2) 5, bitAt (ep 3) 4, bitAt (c.allParked e) 3]
  | 0x20 => c.qown.setWidth 64
  | 0x28 => pack [(q 0, 24, 6), (q 1, 16, 6), (q 2, 8, 5), (q 3, 0, 5)]
  | 0x30 => BitVec.ofNat 64 c.steps
  | _ => 0

/-- THR.n block (Table 2-8). PRIOR is given for a PARKED thread alone; in any other state it reads 0, the model's choice (log entry 109). -/
def readThr (th : Thread) (o : Nat) : Word :=
  match o with
  | 0x00 =>
    let cause := if th.st = .wait then th.wcause.code else 0
    let prior := if th.st = .parked then th.prior.code else 0
    pack [(cause, 16, 8), bitAt th.smode 15, bitAt th.msg.isSome 11, (prior, 4, 3), (th.st.code, 0, 3)]
  | 0x08 => pack [(th.entry.toNat, 16, 16), bitAt th.startS 2, bitAt th.disp 1]
  | 0x18 => pcWord th.pc
  | 0x20 => BitVec.ofNat 64 th.icount
  | 0x28 => BitVec.ofNat 64 th.wsteps
  | _ => 0

/-- RING.n block (Table 5-3). -/
def readRing (r : Ring) (o : Nat) : Word :=
  match o with
  | 0x00 => pack [bitAt r.fsm.en 63, (r.fsm.st.code, 61, 2), bitAt r.fsm.pend 60, bitAt r.fsm.cerr 59, bitAt r.aerr 58, bitAt r.slotKind 57,
      (r.pkind, 54, 3), (r.ckind, 52, 2), (r.crkind, 50, 2), (r.stream, 40, 10), (r.slot, 31, 9), (r.size, 12, 12), (r.base, 0, 12)]
  | 0x08 => pack [(r.fill, 48, 16), bitAt r.hwrap 40, (r.head, 24, 16), bitAt r.twrap 16, (r.tail, 0, 16)]
  | 0x18 => r.crt
  | _ => 0

/-- CHO.n block (Table 11-3). -/
def readCho (x : Cho) (o : Nat) : Word :=
  match o with
  | 0x00 => pack [bitAt x.fsm.en 63, (x.fsm.st.code, 61, 2), bitAt x.fsm.pend 60, bitAt x.dyn 59, (x.ccause, 56, 3), (x.stream, 0, 10)]
  | 0x08 => pack [(x.dchip, 52, 12), (x.dlcid, 24, 12), (x.dchi, 0, 6)]
  | 0x10 => pack [(x.epoch, 48, 16), bitAt x.slotKind 47, (x.slot, 38, 9), (x.grant, 16, 16), (x.credit, 0, 16)]
  | _ => 0

/-- CHI.n block (Table 11-4). -/
def readChi (x : Chi) (o : Nat) : Word :=
  match o with
  | 0x00 => pack [bitAt x.fsm.en 63, (x.fsm.st.code, 61, 2), bitAt x.fsm.pend 60, bitAt x.dyn 59, (x.lvl, 56, 3), bitAt x.hmode 55,
      (x.ring, 51, 4), (x.share, 32, 16), (x.haddr.toNat, 16, 16), (x.epoch.toNat, 0, 16)]
  | 0x08 => let p := x.last; pack [(p.chip, 52, 12), (p.lcid, 40, 12), (p.cho, 34, 6), bitAt x.peer.isSome 0]
  | _ => 0

/-- DMA.n.POS: the first byte not done of a transfer that runs; of a parked channel, or one without a running transfer, what was kept (R319, Table 9-8). -/
def readPos (m : Dma) : Word :=
  match m.run, m.eng.q with
  | some r, h :: _ => if m.eng.parked then m.pos else h.desc.posWord r.done
  | _, _ => m.pos

/-- DMA.n block (Table 9-8). -/
def readDma (m : Dma) (o : Nat) : Word :=
  let g := m.eng
  if o = 0x00 then pack [bitAt m.fsm.en 63, (m.fsm.st.code, 61, 2), bitAt m.fsm.pend 60]
  else if o = 0x08 then pack [bitAt g.pushErr 16, bitAt g.halt 15, bitAt m.serr 14, bitAt g.parked 10, bitAt m.abpend 9, bitAt m.run.isSome 8, (m.cause, 0, 8)]
  else if o = 0x18 then readPos m
  else if o = 0x20 then BitVec.ofNat 64 m.pcnt
  else if o = 0x28 then BitVec.ofNat 64 m.bytes
  else if o = 0x30 then BitVec.ofNat 64 m.xfers
  else if o = 0x38 then BitVec.ofNat 64 m.aborts
  else if o = 0x40 then BitVec.ofNat 64 g.qidx
  else if 0x48 ≤ o ∧ o < 0xB0 then (if g.parked then g.window ((o - 0x48) / 8) else 0)
  else 0

/-- The common bits of MXE.STAT and VXE.STAT. -/
def readEngStat (g : Eng) : Word :=
  pack [bitAt g.halt 15, (g.hcause, 12, 3), bitAt g.pushErr 11, bitAt g.parked 10, (execCount g.q, 8, 2)]

/-- A MXE.TAG register: four tags from selector s on. -/
def readTags (m : Mxe) (s : Nat) : Word :=
  pack [(encTag (m.tagOf s), 0, 16), (encTag (m.tagOf (s + 1)), 16, 16), (encTag (m.tagOf (s + 2)), 32, 16), (encTag (m.tagOf (s + 3)), 48, 16)]

/-- The marks of a tile's rows, and of a register's words, as a number. -/
def markBits (n : Nat) (f : Nat → Bool) : Nat := ((List.range n).map fun i => b2n (f i) * 2 ^ i).sum

/-- MXE control block (Table 7-12), but for the read of TDATA that advances WORD; elements and marks outside a tile's tag read zero (R235). -/
def readMxe (m : Mxe) (o : Nat) : Word :=
  let g := m.eng
  if o = 0x00 then readEngStat g
  else if o = 0x08 then pack [bitAt m.fPsn 9, bitAt m.fIov 8, (m.flags.toNat, 0, 5)]
  else if o = 0x10 then BitVec.ofNat 64 g.srow
  else if o = 0x20 then m.srs.setWidth 64
  else if o = 0x28 then m.sri
  else if o = 0x30 then readTags m 0
  else if o = 0x38 then readTags m 4
  else if o = 0x40 then readTags m 8
  else if o = 0x48 then BitVec.ofNat 64 g.qidx
  else if 0x50 ≤ o ∧ o < 0x70 then (if g.parked then g.window ((o - 0x50) / 8) else 0)
  else if o = 0x70 then (if g.parked then pack [(markBits 32 (fun r => m.rowMark m.tile r && (m.tagOf m.tile).any fun s => decide (r < s.r)), 32, 32), (m.tile, 16, 4), (m.word, 0, 9)] else 0)
  else if o = 0x78 then (if g.parked ∧ m.tile < 12 then BitVec.ofNat 64 (rdNat (m.fit m.tile (m.tagOf m.tile)).tiles (4096 * m.tile + 8 * m.word) 8) else 0)
  else if 0x80 ≤ o ∧ o < 0x100 then mget 0 m.cb ((o - 0x80) / 8)
  else 0

/-- Words of a tile in its window. -/
def tileWords (tile : Nat) : Nat := if tile < 8 then 256 else 512

/-- VXE control block (Table 8-10), but for the read of VDATA that advances WORD. -/
def readVxe (v : Vxe) (o : Nat) : Word :=
  let g := v.eng
  if o = 0x00 then readEngStat g
  else if o = 0x08 then pack [bitAt v.fPsn 9, bitAt v.fIov 8, (v.flags.toNat, 0, 5)]
  else if o = 0x10 then BitVec.ofNat 64 g.srow
  else if o = 0x20 then pack [(v.te.toNat, 8, 5), (v.rm.toNat, 5, 3)]
  else if o = 0x28 then v.srs.setWidth 64
  else if o = 0x30 then v.sri
  else if o = 0x38 then v.key
  else if o = 0x40 then BitVec.ofNat 64 g.qidx
  else if 0x48 ≤ o ∧ o < 0x68 then (if g.parked then g.window ((o - 0x48) / 8) else 0)
  else if o = 0x68 then (if g.parked then pack [(markBits 16 (v.mark v.reg), 48, 16), (v.reg, 8, 5), (v.word, 0, 4)] else 0)
  else if o = 0x70 then (if g.parked then BitVec.ofNat 64 (rdNat v.v (128 * v.reg + 8 * v.word) 8) else 0)
  else if o = 0x78 then pack [(v.tLane, 24, 5), (v.tExc.toNat, 16, 5), (v.tAddr.toNat, 0, 16)]
  else 0

/-- Barrier and counter status block (Table 10-6). -/
def readBar (e : Env) (c : Core) (o : Nat) : Word :=
  if o = 0x00 then c.part.setWidth 64
  else if o = 0x08 then c.arrive.setWidth 64
  else if o = 0x10 then e.blxBrk.setWidth 64
  else if o = 0x20 then c.scBrk.setWidth 64
  else if 0x40 ≤ o ∧ o < 0x80 then c.bgenAt ((o - 0x40) / 8)
  else 0

/-- TB mirror and timer block (Table 17-5); a read of WAIT by its own thread while armed is held by `opIn`. -/
def readTmr (e : Env) (c : Core) (who : Option Nat) (o : Nat) : Word :=
  if o = 0x00 then BitVec.ofNat 64 e.tb
  else if o = 0x08 then
    if c.pace.mode ∧ c.pace.t0 ≤ e.tb ∧ c.pace.per ≠ 0 then BitVec.ofNat 64 ((e.tb - c.pace.t0) / c.pace.per) else 0
  else if 0x40 ≤ o ∧ o < 0x80 then
    let th := c.thread ((o - 0x40) / 8)
    pack [bitAt th.tmrEn 63, (th.tmrTick, 0, 63)]
  else if 0x80 ≤ o ∧ o < 0xC0 then (if who = some ((o - 0x80) / 8) then BitVec.ofNat 64 e.tb else 0)
  else 0

/-- Pace control block (Table 17-6). -/
def readPace (p : Pace) (o : Nat) : Word :=
  match o with
  | 0x00 => pack [bitAt p.cerr 2, bitAt p.mode 0]
  | 0x08 => BitVec.ofNat 64 p.t0
  | 0x10 => BitVec.ofNat 64 p.per
  | 0x18 => BitVec.ofNat 64 p.maint
  | 0x20 => p.tmask.setWidth 64
  | 0x28 => pack [(p.b1m1, 8, 8), (p.b0m1, 0, 8)]
  | 0x30 => BitVec.ofNat 64 p.work
  | 0x38 => BitVec.ofNat 64 p.rel
  | 0x40 => BitVec.ofNat 64 p.slips
  | 0x48 => BitVec.ofNat 64 p.lastslip
  | 0x50 => pack [(p.peak, 8, 7), (p.used, 0, 7)]
  | _ => 0

/-- Channel counter block (Table 11-5). -/
def readChCnt (c : Core) (o : Nat) : Word :=
  if o < 0x400 then (if o % 16 = 0 then BitVec.ofNat 64 (c.choAt (o / 16)).msg else BitVec.ofNat 64 (c.choAt (o / 16)).stall)
  else if o < 0x800 then
    let x := c.chiAt ((o - 0x400) / 16)
    if o % 16 = 0 then BitVec.ofNat 64 x.rcv else BitVec.ofNat 64 x.drop
  else if o < 0x880 then BitVec.ofNat 64 (c.ringAt ((o - 0x800) / 8)).ovfc
  else 0

/-- Exception block of a thread (Table 4-6). -/
def readExc (th : Thread) (o : Nat) : Word :=
  match o with
  | 0x00 => pcWord th.xra
  | 0x08 => pack [bitAt th.dfh 16, bitAt th.arm 15, (th.ml.toNat, 12, 3), (th.pml.toNat, 8, 3), bitAt th.pmode 7, bitAt th.ds 6]
  | 0x10 => th.xcause
  | 0x18 => th.xaddr
  | 0x20 => pcWord th.dra
  | 0x28 => pack [bitAt th.dparm 15, (th.dpml.toNat, 8, 3), bitAt th.dpmode 7, bitAt th.dds 6]
  | 0x30 => th.xpend.setWidth 64
  | 0x38 => pack [(th.ccl.toNat, 8, 3), (th.swil.toNat, 4, 3), (th.tmrl.toNat, 0, 3)]
  | 0x48 => pack [bitAt th.wdtEn 63, (th.wdtInt.toNat, 0, 32)]
  | _ => 0

/-- Entry block (Table 4-7). -/
def readEnt (c : Core) (o : Nat) : Word :=
  if o < 0x40 then
    let n := o / 8
    pack [((mget 0 c.entAddr n).toNat, 16, 16), ((mget 0 c.entMl n).toNat, 8, 3), bitAt (mget false c.entEn n) 0]
  else match o with
    | 0x40 => pack [(c.exv.toNat, 16, 16)]
    | 0x48 => pack [(c.irqv.toNat, 16, 16)]
    | 0x50 => pack [(c.dfv.toNat, 16, 16)]
    | 0x58 => pack [bitAt c.vecmode 0]
    | 0x60 => c.nxmap
    | _ => 0

/-- What a read returns, before the side effect of the data windows (R71, R72). -/
def ioValue (e : Env) (c : Core) (who : Option Nat) (off : Nat) : Word :=
  if off < 0x400 then readCore e c off
  else if off < 0x800 then
    let n := (off - 0x400) / 128
    if n < e.nthr then readThr (c.thread n) (off % 128) else 0
  else if off < 0x980 then c.scAt ((off - 0x800) / 8)
  else if 0x1000 ≤ off ∧ off < 0x1200 then readRing (c.ringAt ((off - 0x1000) / 32)) (off % 32)
  else if 0x1400 ≤ off ∧ off < 0x1C00 then readCho (c.choAt ((off - 0x1400) / 32)) (off % 32)
  else if 0x1C00 ≤ off ∧ off < 0x2400 then readChi (c.chiAt ((off - 0x1C00) / 32)) (off % 32)
  else if 0x2400 ≤ off ∧ off < 0x2600 then readDma (c.dma ((off - 0x2400) / 256)) (off % 256)
  else if 0x2600 ≤ off ∧ off < 0x2700 then (if e.vcore then 0 else readMxe c.mxe (off - 0x2600))
  else if 0x2700 ≤ off ∧ off < 0x2800 then readVxe c.vxe (off - 0x2700)
  else if 0x2800 ≤ off ∧ off < 0x2900 then
    match off - 0x2800 with
    | 0x00 => pack [(c.trk.peak, 8, 6), (c.trk.ents.length, 0, 6)]
    | 0x08 => BitVec.ofNat 64 c.trk.full
    | 0x10 => BitVec.ofNat 64 c.trk.confl
    | _ => 0
  else if 0x2900 ≤ off ∧ off < 0x2A00 then readBar e c (off - 0x2900)
  else if 0x2A00 ≤ off ∧ off < 0x2B00 then readTmr e c who (off - 0x2A00)
  else if 0x2B00 ≤ off ∧ off < 0x2C00 then readPace c.pace (off - 0x2B00)
  else if 0x3000 ≤ off ∧ off < 0x4000 then readChCnt c (off - 0x3000)
  else if 0x8000 ≤ off ∧ off < 0x8400 then
    let n := (off - 0x8000) / 128
    if n < e.nthr then readExc (c.thread n) (off % 128) else 0
  else if 0x8400 ≤ off ∧ off < 0x8800 then readEnt c (off - 0x8400)
  else 0

/-- WORD of the tile window after an access of TDATA. -/
def Mxe.stepWord (m : Mxe) : Mxe := { m with word := (m.word + 1) % tileWords m.tile }

/-- A read of a register, with the advance of a data window's WORD (R265, R293). -/
def ioRead (e : Env) (c : Core) (who : Option Nat) (off : Nat) : Core × Word :=
  let w := ioValue e c who off
  if off = 0x2678 ∧ !e.vcore ∧ c.mxe.eng.parked then ({ c with mxe := c.mxe.stepWord }, w)
  else if off = 0x2770 ∧ c.vxe.eng.parked then ({ c with vxe := { c.vxe with word := (c.vxe.word + 1) % 16 } }, w)
  else (c, w)

/-! ## Writing -/

/-- A write of CORE.CTL. -/
def writeCoreCtl (e : Env) (c : Core) (v : Word) : Core × List Emit :=
  let c1 := { c with lock := c.lock || bit v 0, dispen := bit v 2 }
  if bit v 1 then (corePark e c1, []) else coreUnpark e c1

/-- An instruction address field whose two low bits must be zero. -/
def addrField (v : Word) : BitVec 16 := BitVec.ofNat 16 (fld v 16 16 / 4 * 4)

/-- A write in the THR block. A CMD write with one command bit set and reserved bits of [63:4] set obeys the command: R76 speaks of command bits only and R20 leaves the written reserved bits without an effect; the model's choice (log entry 109). -/
def writeThr (e : Env) (c : Core) (n o : Nat) (v : Word) : Core :=
  match o with
  | 0x08 => if c.lock then c else c.updThread n fun th => { th with entry := addrField v, startS := bit v 2, disp := bit v 1 }
  | 0x10 => thrCmd e c n (fld v 0 4)
  | _ => c

/-- The configuration fields of RING.n.CFG, writable while OFF (R181). -/
def ringFields (r : Ring) (v : Word) : Ring :=
  { r with slotKind := bit v 57, pkind := fld v 54 3, ckind := fld v 52 2, crkind := fld v 50 2
           stream := fld v 40 10, slot := fld v 31 9, size := fld v 12 12, base := fld v 0 12 }

/-- RING_ENABLE and RING_DISABLE: EN written (R182, R183). -/
def ringEnable (c : Core) (n : Nat) : Core := let r := c.ringAt n; c.setRing n { r with fsm := r.fsm.write true }

/-- A write of RING.n.CFG. -/
def writeRingCfg (e : Env) (c : Core) (n : Nat) (v : Word) : Core × List Emit :=
  let r := c.ringAt n
  let r1 := if bit v 58 then { r with aerr := false } else r
  let r2 := if r.fsm.st = .off then ringFields r1 v else r1
  let c1 := c.setRing n r2
  if bit v 63 then (ringEnable c1 n, []) else ringDisable e c1 n

/-- A write in the RING block. -/
def writeRing (e : Env) (c : Core) (n o : Nat) (v : Word) : Core × List Emit :=
  match o with
  | 0x00 => writeRingCfg e c n v
  | 0x10 => ringAdv e c n (fld v 16 16) (fld v 0 16)
  | 0x18 => let r := c.ringAt n; (if r.fsm.st = .off then c.setRing n { r with crt := v } else c, [])
  | _ => (c, [])

/-- A write in the CHO block: fields while CLOSED, EN always (R375). -/
def writeCho (e : Env) (c : Core) (n o : Nat) (v : Word) : Core × List Emit :=
  let x := c.choAt n
  match o with
  | 0x00 =>
    let c1 := if x.fsm.st = .off then c.setCho n { x with dyn := bit v 59, stream := fld v 0 10 } else c
    if bit v 63 then choOpen e c1 n else (choClose e c1 n, [])
  | 0x08 => (if x.fsm.st = .off then c.setCho n { x with dchip := fld v 52 12, dlcid := fld v 24 12, dchi := fld v 0 6 } else c, [])
  | _ => (c, [])

/-- A write in the CHI block. -/
def writeChi (e : Env) (c : Core) (n o : Nat) (v : Word) : Core × List Emit :=
  let x := c.chiAt n
  match o with
  | 0x00 =>
    let c1 := if x.fsm.st = .off then
        c.setChi n { x with dyn := bit v 59, lvl := fld v 56 3, hmode := bit v 55, ring := fld v 51 4, share := fld v 32 16, haddr := addrField v }
      else c
    if bit v 63 then (chiOpen c1 n, []) else chiClose e c1 n true
  | _ => (c, [])

/-- Changing the queue window and SROW, which a park opens (R161, R265). -/
def engWindow (g : Eng) (idxMask : Nat) (o qidx qw0 words : Nat) (v : Word) : Eng :=
  if !g.parked then g
  else if o = qidx then { g with qidx := v.toNat % idxMask }
  else if qw0 ≤ o ∧ o < qw0 + 8 * words then { g with stage := mset g.stage ((o - qw0) / 8) v }
  else g

/-- A write in a DMA block. -/
def writeDma (e : Env) (c : Core) (n o : Nat) (v : Word) : Core × List Emit :=
  let m := c.dma n
  if o = 0x00 then (dmaEnable c n (bit v 63), [])
  else if o = 0x10 then
    let c1 := if bit v 0 then dmaResume c n else c
    let r := if bit v 1 then dmaDrop e c1 n else (c1, [])
    (if bit v 2 then enginePush e r.1 (2 + n) else r.1, r.2)
  else if o = 0x18 then (if m.eng.parked then c.setDma n { m with pos := v } else c, [])
  else if o = 0x20 then (c.setDma n { m with pcnt := fld v 0 32 }, [])
  else (c.setDma n { m with eng := engWindow m.eng 16 o 0x40 0x48 13 v }, [])

/-- The bytes of a TDATA word that lie in a tagged element are written (R265, R235). -/
def writeTile (m : Mxe) (v : Word) : Mxe :=
  match m.tagOf m.tile with
  | none => m
  | some s =>
    let off := 8 * m.word
    { m.spoil m.tile with tiles := (List.range 8).foldl (fun t i =>
        if Shape.holds (some s) m.tile (off + i) then wrByte t (4096 * m.tile + off + i) (BitVec.ofNat 8 (v.toNat / 256 ^ i)) else t) m.tiles }

/-- MXE_TDATA_ACCESS: a write of the tile window (R265). -/
def tdataWrite (c : Core) (v : Word) : Core :=
  if c.mxe.eng.parked then { c with mxe := (writeTile c.mxe v).stepWord } else c

/-- A tag set by a write: the tile holds zero outside it (R235), unless a queued command names the tile, which meets the contents that the commands before it leave (R267). DEDUCED (log entry 109). -/
def Mxe.putTag (m : Mxe) (sel : Nat) (t : Option Shape) : Mxe :=
  let named := m.eng.q.any fun x => (mxeReads (x.iw 0)).contains sel || (mxeWrites (x.iw 0)).contains sel
  (if named then m else m.fit sel t).setTag sel t

/-- A write of a MXE.TAG register while parked (R265, R267). -/
def mxeTagWrite (c : Core) (k : Nat) (v : Word) : Core :=
  if c.mxe.eng.parked then
    { c with mxe := (List.range 4).foldl (fun m i => m.putTag (4 * k + i) (decTag (fld v (16 * i) 16))) c.mxe }
  else c

/-- A write of MXE.CTL: RETRY, DROP, PUSH. -/
def writeEngCtl (e : Env) (c : Core) (k : Nat) (v : Word) : Core × List Emit :=
  let c1 := if bit v 0 then engRetry c k else c
  let r := if bit v 1 then engineDrop e c1 k else (c1, [])
  let s := if k = 1 ∧ bit v 3 then vxeDefault e r.1 else (r.1, [])
  (if bit v 2 then enginePush e s.1 k else s.1, r.2 ++ s.2)

/-- A write in the MXE block. -/
def writeMxe (e : Env) (c : Core) (o : Nat) (v : Word) : Core × List Emit :=
  let m := c.mxe
  let g := m.eng
  if o = 0x08 then ({ c with mxe := { m with fPsn := bit v 9, fIov := bit v 8, flags := BitVec.ofNat 5 (fld v 0 5) } }, [])
  else if o = 0x10 then (if g.parked then { c with mxe := { m with eng := { g with srow := fld v 0 5 } } } else c, [])
  else if o = 0x18 then writeEngCtl e c 0 v
  else if o = 0x20 then ({ c with mxe := { m with srs := BitVec.ofNat 32 (fld v 0 32) } }, [])
  else if o = 0x28 then ({ c with mxe := { m with sri := v } }, [])
  else if 0x30 ≤ o ∧ o < 0x48 then (mxeTagWrite c ((o - 0x30) / 8) v, [])
  else if o = 0x70 then
    if g.parked then
      let m1 := { m with tile := fld v 16 4, word := fld v 0 9 }
      ({ c with mxe := if bit v 31 then (List.range 32).foldl (fun x r =>
          x.setMark m1.tile r (bit v (32 + r) && (m1.tagOf m1.tile).any fun s => decide (r < s.r))) m1 else m1 }, [])
    else (c, [])
  else if o = 0x78 then (tdataWrite c v, [])
  else if 0x80 ≤ o ∧ o < 0x100 then ({ c with mxe := { m with cb := mset m.cb ((o - 0x80) / 8) v } }, [])
  else ({ c with mxe := { m with eng := engWindow g 32 o 0x48 0x50 4 v } }, [])

/-- VXE_VDATA_ACCESS: a write of the register window (R293). -/
def vdataWrite (c : Core) (v : Word) : Core :=
  let x := c.vxe
  if x.eng.parked then
    { c with vxe := { x with v := wrNat x.v (128 * x.reg + 8 * x.word) 8 v.toNat, word := (x.word + 1) % 16 } }
  else c

/-- A write in the VXE block. -/
def writeVxe (e : Env) (c : Core) (o : Nat) (v : Word) : Core × List Emit :=
  let x := c.vxe
  let g := x.eng
  if o = 0x08 then ({ c with vxe := { x with fPsn := bit v 9, fIov := bit v 8, flags := BitVec.ofNat 5 (fld v 0 5) } }, [])
  else if o = 0x10 then (if g.parked then { c with vxe := { x with eng := { g with srow := fld v 0 16 } } } else c, [])
  else if o = 0x18 then writeEngCtl e c 1 v
  else if o = 0x20 then ({ c with vxe := { x with te := BitVec.ofNat 5 (fld v 8 5), rm := BitVec.ofNat 3 (fld v 5 3) } }, [])
  else if o = 0x28 then ({ c with vxe := { x with srs := BitVec.ofNat 32 (fld v 0 32) } }, [])
  else if o = 0x30 then ({ c with vxe := { x with sri := v } }, [])
  else if o = 0x38 then ({ c with vxe := { x with key := v } }, [])
  else if o = 0x68 then
    if g.parked then
      let x1 := { x with reg := fld v 8 5, word := fld v 0 4 }
      ({ c with vxe := if bit v 47 then (List.range 16).foldl (fun y w => y.setMark x1.reg w (bit v (48 + w))) x1 else x1 }, [])
    else (c, [])
  else if o = 0x70 then (vdataWrite c v, [])
  else ({ c with vxe := { x with eng := engWindow g 32 o 0x40 0x48 4 v } }, [])

/-- A write in the barrier and counter block (Table 10-6). -/
def writeBar (c : Core) (o : Nat) (v : Word) : Core :=
  if o = 0x00 then { c with part := v.setWidth 8 }
  else if o = 0x18 then c.bgenClear (v.setWidth 8)
  else if o = 0x28 then c.scClear (v.setWidth 48)
  else c

/-- A write in the timer block. -/
def writeTmr (e : Env) (c : Core) (o : Nat) (v : Word) : Core :=
  if 0x40 ≤ o ∧ o < 0x80 ∧ (o - 0x40) / 8 < e.nthr then
    c.updThread ((o - 0x40) / 8) fun th => { th with tmrEn := bit v 63, tmrTick := fld v 0 63 }
  else c

/-- PACE_MODE_SET: a write of MODE = 1 (R520, R535). -/
def paceSet (e : Env) (c : Core) : Core :=
  let p := c.pace
  let bad := decide (p.per < 256) || decide (1048576 < p.per) || (p.maint != 0 && (decide (p.maint < 64) || decide (4096 < p.maint)))
    || (List.range 8).any fun t => p.tmask.getLsbD t && decide (e.nthr ≤ t)
  if p.mode then c
  else if bad then { c with pace := { p with cerr := true } }
  else
    let c1 := { c with pace := { p with mode := true, cerr := false, work := 0, rel := 0, slips := 0, lastslip := 0, peak := p.used, bnext := 0 } }
    (List.range 8).foldl (fun c t => c.updThread t fun th => { th with pw := 0, pdone := false }) c1

/-- What a held action does when it is released. -/
def paceFire (e : Env) (c : Core) (a : PaceAct) : Core × List Emit :=
  match a with
  | .send em => (c, [em])
  | .arrive n => ({ c with arrive := c.arrive ||| BitVec.ofNat 8 (2 ^ n) }, [])
  | .burst ch => burstRelease e c ch

/-- Releasing actions in order. -/
def paceFireAll (e : Env) (c : Core) : List HeldAct → Core × List Emit
  | [] => (c, [])
  | h :: r =>
    let x := paceFire e c h.act
    let y := paceFireAll e x.1 r
    (y.1, x.2 ++ y.2)

/-- PACE_MODE_CLEAR: a write of MODE = 0 releases every held action at once (Table 17-3). -/
def paceClear (e : Env) (c : Core) : Core × List Emit :=
  let p := c.pace
  paceFireAll e { c with pace := { p with mode := false, held := [] } } p.held

/-- A write in the pace block (R535). -/
def writePace (e : Env) (c : Core) (o : Nat) (v : Word) : Core × List Emit :=
  let p := c.pace
  if o = 0x00 then (if bit v 0 then (paceSet e c, []) else if p.mode then paceClear e c else (c, []))
  else if p.mode then (c, [])
  else
    match o with
    | 0x08 => ({ c with pace := { p with t0 := v.toNat } }, [])
    | 0x10 => ({ c with pace := { p with per := fld v 0 21 } }, [])
    | 0x18 => ({ c with pace := { p with maint := fld v 0 13 } }, [])
    | 0x20 => ({ c with pace := { p with tmask := v.setWidth 8 } }, [])
    | 0x28 => ({ c with pace := { p with b1m1 := fld v 8 8, b0m1 := fld v 0 8 } }, [])
    | _ => (c, [])

/-- Bits of XCAUSE that are not reserved. -/
def xcauseMask : Word := 0xF0FF_0000_00FF_00FF

/-- A write in an exception block (Table 4-6, R162). -/
def writeExc (e : Env) (c : Core) (n o : Nat) (who : Option Nat) (v : Word) : Core :=
  let upd (f : Thread → Thread) : Core := if excOpen c n who then c.updThread n f else c
  match o with
  | 0x00 => upd fun th => { th with xra := BitVec.ofNat 16 (fld v 0 16 / 4 * 4) }
  | 0x08 => xstWrite c n who v
  | 0x10 => upd fun th => { th with xcause := v &&& xcauseMask }
  | 0x18 => upd fun th => { th with xaddr := v }
  | 0x20 => upd fun th => { th with dra := BitVec.ofNat 16 (fld v 0 16 / 4 * 4) }
  | 0x28 => upd fun th => { th with dparm := bit v 15, dpml := BitVec.ofNat 3 (fld v 8 3), dpmode := bit v 7, dds := bit v 6 }
  | 0x30 => xpendClear c n v
  | 0x38 => upd fun th => { th with ccl := BitVec.ofNat 3 (fld v 8 3), swil := BitVec.ofNat 3 (fld v 4 3), tmrl := BitVec.ofNat 3 (fld v 0 3) }
  | 0x40 => if bit v 0 then xswiRaise c n else c
  | 0x48 => xwdtWrite e c n who v
  | _ => c

/-- A write in the entry block (Table 4-7). -/
def writeEnt (c : Core) (o : Nat) (v : Word) : Core :=
  if o < 0x40 then
    let n := o / 8
    { c with entEn := mset c.entEn n (bit v 0), entMl := mset c.entMl n (BitVec.ofNat 3 (fld v 8 3)), entAddr := mset c.entAddr n (addrField v) }
  else match o with
    | 0x40 => { c with exv := addrField v }
    | 0x48 => { c with irqv := addrField v }
    | 0x50 => { c with dfv := addrField v }
    | 0x58 => { c with vecmode := bit v 0 }
    | 0x60 => { c with nxmap := v }
    | _ => c

/-- A write of a core I/O register by a thread of the core (`some t`) or by another agent (R72, R162). -/
def ioWrite (e : Env) (c : Core) (who : Option Nat) (off : Nat) (v : Word) : Core × List Emit :=
  if off = 0x10 then writeCoreCtl e c v
  else if off = 0x20 then (qownWrite e c (v.setWidth 16), [])
  else if 0x400 ≤ off ∧ off < 0x800 then
    let n := (off - 0x400) / 128
    c.settleAfter e (if n < e.nthr then writeThr e c n (off % 128) v else c, [])
  else if 0x1000 ≤ off ∧ off < 0x1200 then writeRing e c ((off - 0x1000) / 32) (off % 32) v
  else if 0x1400 ≤ off ∧ off < 0x1C00 then writeCho e c ((off - 0x1400) / 32) (off % 32) v
  else if 0x1C00 ≤ off ∧ off < 0x2400 then writeChi e c ((off - 0x1C00) / 32) (off % 32) v
  else if 0x2400 ≤ off ∧ off < 0x2600 then writeDma e c ((off - 0x2400) / 256) (off % 256) v
  else if 0x2600 ≤ off ∧ off < 0x2700 then (if e.vcore then (c, []) else writeMxe e c (off - 0x2600) v)
  else if 0x2700 ≤ off ∧ off < 0x2800 then writeVxe e c (off - 0x2700) v
  else if 0x2900 ≤ off ∧ off < 0x2A00 then (writeBar c (off - 0x2900) v, [])
  else if 0x2A00 ≤ off ∧ off < 0x2B00 then (writeTmr e c (off - 0x2A00) v, [])
  else if 0x2B00 ≤ off ∧ off < 0x2C00 then writePace e c (off - 0x2B00) v
  else if 0x8000 ≤ off ∧ off < 0x8400 then
    let n := (off - 0x8000) / 128
    (if n < e.nthr then writeExc e c n (off % 128) who v else c, [])
  else if 0x8400 ≤ off ∧ off < 0x8800 then (writeEnt c (off - 0x8400) v, [])
  else (c, [])

/-! ## IN and OUT (R71 to R73, R116) -/

/-- The offset of an access and its checks but the tag of rd: privilege before alignment before bounds (R98). -/
def ioOffset (e : Env) (th : Thread) (t ra : Nat) (imm : Int) (write : Bool) : Except Ev Int := do
  let a ← needInt (th.reg ra)
  let off := a.toInt + imm
  let inside := decide (0 ≤ off) && decide (off < 65536)
  if !th.smode && inside && (if write then uWriteDenied e.vcore t (off.toNat / 8 * 8) else uReadDenied off.toNat) then .error (evPriv (iWord off))
  else return off

/-- Alignment, then bounds. -/
def ioAligned (off : Int) : Except Ev Nat :=
  if off % 8 ≠ 0 then .error (evAlign (iWord off))
  else if off < 0 ∨ 0xFFF8 < off then .error (evBounds (iWord off))
  else .ok off.toNat

/-- IN; an armed TMR.t.WAIT of its own holds the thread (R534). -/
def opIn (rd ra : Nat) (imm : Int) : Body := fun e c t => do
  let th := c.thread t
  let o ← ioOffset e th t ra imm false
  let off ← ioAligned o
  if off = 0x2A80 + 8 * t ∧ th.tmrEn then return (c, .wait .timer (.timer rd), [])
  let r := ioRead e c (some t) off
  return (r.1.setReg t rd (tint r.2), .seq, [])

/-- An OUT that must wait for an earlier engine command: to a codebook that a queued TLOAD uses, or to VXE.KEY while a queued command draws random bits (R249, R273). -/
def outHeld (e : Env) (c : Core) (off : Nat) : Bool :=
  let cb := !e.vcore && decide (0x2680 ≤ off ∧ off < 0x2700) && c.mxe.eng.q.any fun x =>
    let iw := x.iw 0
    major iw == 0x31 && nf iw 10 2 == 3 && nf iw 2 3 == 1 && nf iw 0 2 == (off - 0x2680) / 32
  let sr (x : QEnt) : Bool :=
    let iw := x.iw 0
    (major iw == 0x32 && nf iw 8 1 == 1) || (major iw == 0x33 && nf iw 14 1 == 1)
  let key := decide (off = 0x2738) && (c.mxe.eng.q.any sr || c.vxe.eng.q.any fun x => !x.isCtr 1 && (vxeDraws (x.iw 1)).isSome)
  cb || key

/-- OUT: a POISON word raises the poison consumed fault and writes nothing (R71). -/
def opOut (rd ra : Nat) (imm : Int) : Body := fun e c t => do
  let th := c.thread t
  let o ← ioOffset e th t ra imm true
  let v ← if (th.reg rd).tag = .poison then .error ({ code := 0x18 } : Ev)
    else if (th.reg rd).tag = .empty then .error (evTag .empty) else .ok (th.reg rd).val
  let off ← ioAligned o
  if outHeld e c off then return (c, .wait .conflict (.out rd ra imm), [])
  let r := ioWrite e c (some t) off v
  return (r.1, .seq, r.2)

end Sys2Proof.Machine
end

