-- ==== Sys2Proof/Machine/State.lean ====
section
/-! DEFINITION. The state of the whole block, its faults and refusals, and the state after a cold reset. -/

namespace Sys2Proof.Machine

/-- The DRE1: its cores, its networks, its memory, its links, its host interface, its management units, and the commands that wait. -/
structure State where
  /-- commands not yet carried out, oldest first -/
  pending : List Instr := []
  /-- TBM.NOW, in ticks (R8) -/
  tb      : Nat := 0
  /-- CHIP.ID: the number and its lock (Table 15-11) -/
  chipId  : Nat := 4095
  chipLock : Bool := false
  /-- CRT.c (R481) -/
  crt     : List (Nat × Crt) := []
  /-- the cores, by logical core ID (R12, R566) -/
  cores   : List (Nat × Core) := []
  /-- CL.n.CTL (R584) -/
  cls     : List (Nat × EnFsm) := []
  /-- routers and mesh endpoints, by node -/
  routers : List (Nat × Router) := []
  /-- flits on their way into input port p of node n, at 8n + p, oldest first; at 8n + 5, flits that have left the mesh at node n -/
  wires   : List (Nat × List Flit) := []
  svc     : Svc := {}
  /-- BLX.n (Table 10-4) -/
  blx     : List (Nat × Blx) := []
  hbm     : List (Nat × Hbm) := []
  regions : List (Nat × Region) := []
  lnk     : List (Nat × Lnk) := []
  tbr     : Tbr := {}
  hif     : Hif := {}
  job     : Job := {}
  brg     : Brg := {}
  sec     : SecBlk := {}
  pwr     : Pwr := {}
  /-- ERR blocks: 0 to 47 the clusters, 48 the die -/
  errs    : List (Nat × ErrQ) := []
  mc      : Mc := {}
  mbx     : Mbx := {}
  tel     : Tel := {}
  fuses   : Fuses := {}
  nor     : Nor := {}
  pins    : Pins := {}
  deriving DecidableEq, Repr

/-- What stops a run for good. -/
inductive Fault where
  /-- Raised by no command: every error that the spec describes is a fault entry of a thread, a record, a status or a refused write, all of them next states. Safe. -/
  | none_
  deriving DecidableEq, Repr

/-- What the model declines to carry out. -/
inductive Refusal where
  /-- A command that has no meaning yet, by its mnemonic. Safe. -/
  | notModelled (mnemonic : String)
  deriving DecidableEq, Repr

/-- The block while PWRGOOD and PERST_N are low: everything at its reset value, the fuses and SPI NOR as they are made (R649, R679). -/
def State.reset : State := {}

/-- The answer of a command. -/
abbrev Out := Host.Outcome State Fault Refusal

end Sys2Proof.Machine
end

