-- ==== Sys2Proof/Machine/Waits.lean ====
section
/-! DEFINITION. What ends a thread's wait, and the boundaries of paced mode (spec 02 R43, R53, R66, R68; 11 R358; 17 R519 to R528, R534). -/

namespace Sys2Proof.Machine

/-- A wait for a slot, an entry or the tracker: its instruction has not issued and is counted when it does. -/
def WCause.beforeIssue : WCause → Bool
  | .queueFull | .conflict | .trkFull => true
  | _ => false

/-- A wait in which the instruction has not issued: its checks are made when it does (R53, R68). -/
def WCause.unissued : WCause → Bool
  | .queueFull | .trkFull => true
  | _ => false

/-- The end of a SEND's payload read (R360): nothing issued later has changed the payload, since the SEND keeps its place. -/
def sendReadEnd (a len : Nat) : Body := fun _ c t => .ok (sendPlace c t a len, .seq, [])

/-- PACE awaiting period w: it ends when the work period has passed w, or at once when paced mode has ended (R526, Table 17-3). -/
def paceWait (w : Nat) : Body := fun e c t =>
  let c1 := paceAdvance e c
  if !c1.pace.mode then .ok (c1.updThread t fun th => { th with pdone := false }, .seq, [])
  else if c1.pace.work ≤ w then .ok (c1, .wait .pace (.pace w), [])
  else .ok (c1.updThread t fun th => { th with pw := c1.pace.work, pdone := false }, .seq, [])

/-- IN of TMR.t.WAIT: it answers TB once the compare has fired (R534). -/
def timerWait (rd : Nat) : Body := fun e c t =>
  if (c.thread t).tmrEn then .ok (c, .wait .timer (.timer rd), [])
  else .ok (c.setReg t rd (tint (BitVec.ofNat 64 e.tb)), .seq, [])

/-- An operation bound for a queue, by its instruction word. -/
def queueBody (iw : Nat) : Body :=
  if iw / 2 ^ 26 = 0x3E then opCtr iw
  else if iw / 2 ^ 26 < 0x38 then opMxe iw
  else opVxe iw

/-- The own part of the instruction at which a thread waits; `none` for a wait that only an answer ends. -/
def waitBody : WaitOp → Option Body
  | .load k rd ra disp => some (opLoad k rd ra disp)
  | .store sz rd ra disp => some (opStore sz rd ra disp)
  | .bmov rd ra rb => some (opBmov rd ra rb)
  | .far store rd ra sz ty disp ent => some (opFar store rd ra sz ty disp ent)
  | .farData _ _ _ _ _ _ => none
  | .ctr iw => some (opCtr iw)
  | .queue iw => some (queueBody iw)
  | .dmago ra rb => some (opDmago ra rb)
  | .send ra rb rc waited => some (opSend ra rb rc waited)
  | .sendRead a len => some (sendReadEnd a len)
  | .pace w => some (paceWait w)
  | .paceStart => none
  | .timer rd => some (timerWait rd)
  | .out rd ra imm => some (opOut rd ra imm)

/-- What issue must know of an instruction that waits unissued (R53). -/
def waitInfo (e : Env) (c : Core) : WaitOp → IssueInfo
  | .bmov rd ra rb => { writes := [rd, ra, rb] }
  | .far store rd _ sz ty _ _ => { writes := if store then [] else [rd], illegal := farIllegal store sz ty }
  | .queue iw =>
    { illegal := if iw / 2 ^ 26 = 0x3E then ctrIllegal e.vcore iw
                 else if iw / 2 ^ 26 < 0x38 then mxeIllegal e.vcore iw else vxeIllegal c.vxe.rm.toNat iw }
  | _ => {}

/-- The thread goes on waiting for the same cause. -/
def stillWaits (old : WCause) : Res → Bool
  | .ok (_, .wait w _, _) => w == old
  | _ => false

/-- WAIT_CONDITION_MET: the held instruction of a waiting thread goes on if what it waits for has come; a test that fails has no effect (R43, Table 2-1). -/
def waitRetest (e : Env) (c : Core) (t : Nat) : Core × List Emit :=
  let th := c.thread t
  if c.held ∨ e.nthr ≤ t ∨ th.st ≠ .wait then (c, [])
  else
    match th.waitOp with
    | some .paceStart =>
      -- a thread of TMASK started before T0 begins at T0 (R526)
      if c.pace.mode ∧ e.tb < c.pace.t0 then (c, [])
      else (c.setThread t { th with st := .run, wcause := .none, waitOp := none }, [])
    | some op =>
      match waitBody op with
      | none => (c, [])
      | some body =>
        if stillWaits th.wcause (body e c t) then (c, [])
        else if th.wcause.unissued then issueDue e c t (waitInfo e c op) body
        else runBody e c t (!th.wcause.beforeIssue) body
    | none => (c, [])

/-! ## Pace boundaries (R524 to R528) -/

/-- The last closed period: the work period when it has closed, else the last one before it; none before the first closes. -/
def Core.lastClosed (e : Env) (c : Core) : Option Nat :=
  let w := c.pace.work
  if c.paceClosed e then some w else if w = 0 then none else some (w - 1)

/-- Period k is a maintenance period (R521). -/
def Pace.isMaint (p : Pace) (k : Nat) : Bool := decide (p.maint ≠ 0) && decide (k % p.maint = p.maint - 1)

/-- The record of a slip (class 0x16): the period's low 32 bits and its lateness. -/
def slipRecord (e : Env) (w late : Nat) : Emit := e.errRec 0x16 0 0 (w % 2 ^ 32 * 2 ^ 16 + late % 2 ^ 16) 0

/-- Counting the slip of period w, released or still open at boundary k (R528). -/
def countSlip (e : Env) (k : Nat) (acc : Core × List Emit) (w : Nat) : Core × List Emit :=
  let p := acc.1.pace
  ({ acc.1 with pace := { p with slips := p.slips + 1, lastslip := w } }, acc.2 ++ [slipRecord e w (k - (w + 1))])

/-- A thread of TMASK that cannot reach PACE: halted or parked (Table 17-3). -/
def Core.paceStuck (e : Env) (c : Core) : Bool :=
  (List.range e.nthr).any fun t => c.pace.tmask.getLsbD t && ((c.thread t).st == .halt || (c.thread t).st == .parked)

/-- The periods that boundary k releases late. -/
def latePeriods (p : Pace) (k last : Nat) : List Nat :=
  (List.range (last + 1)).filter fun w => decide (p.rel ≤ w) && !p.isMaint w && decide (w + 1 < k)

/-- PACE_BOUNDARY: at the next boundary, the held actions of every closed period are released in order, and slips are counted (R525, R528). -/
def paceBoundary (e : Env) (c0 : Core) : Core × List Emit :=
  let p0 := c0.pace
  let k := p0.bnext
  if c0.held ∨ !p0.mode ∨ e.tb < p0.boundary k then (c0, [])
  else
    let c := paceAdvance e { c0 with pace := { p0 with bnext := k + 1 } }
    match c.lastClosed e with
    | none =>
      if c.paceStuck e ∧ 1 < k then countSlip e k (c, []) 0 else (c, [])
    | some last =>
      let p := c.pace
      let slipped := (latePeriods p k last).foldl (countSlip e k) (c, [])
      let p1 := slipped.1.pace
      let due := p1.held.filter fun h => decide (h.period ≤ last)
      let c1 := { slipped.1 with pace := { p1 with held := p1.held.filter (fun h => decide (last < h.period)), rel := max p1.rel (p.next last) } }
      let r := paceFireAll e c1 due
      let w := c.pace.work
      if !c.paceClosed e ∧ c.paceStuck e ∧ w + 1 < k then countSlip e k (r.1, slipped.2 ++ r.2) w
      else (r.1, slipped.2 ++ r.2)

end Sys2Proof.Machine
end

