-- ==== Sys2Proof/Machine/Chip.lean ====
section
/-! DEFINITION. The chip as its units see it: placement of cores, records and their queues, urgent units, broken lines, system addresses and the region table (spec 00 R12 to R14, 10 R346, 14 R439 to R441, 15 R471 to R483, 19 R564 to R567, 22 R634 to R638). -/

namespace Sys2Proof.Machine

/-! ## Units of the chip -/

def State.coreAt (s : State) (l : Nat) : Core := mget {} s.cores l
def State.setCore (s : State) (l : Nat) (c : Core) : State := { s with cores := mset s.cores l c }
def State.cl (s : State) (n : Nat) : EnFsm := mget {} s.cls n
def State.setCl (s : State) (n : Nat) (f : EnFsm) : State := { s with cls := mset s.cls n f }
def State.router (s : State) (n : Nat) : Router := mget {} s.routers n
def State.setRouter (s : State) (n : Nat) (r : Router) : State := { s with routers := mset s.routers n r }
def State.line (s : State) (n : Nat) : Blx := mget {} s.blx n
def State.setLine (s : State) (n : Nat) (x : Blx) : State := { s with blx := mset s.blx n x }
def State.stk (s : State) (h : Nat) : Hbm := mget {} s.hbm h
def State.setStk (s : State) (h : Nat) (x : Hbm) : State := { s with hbm := mset s.hbm h x }
def State.region (s : State) (n : Nat) : Region := mget {} s.regions n
def State.setRegion (s : State) (n : Nat) (x : Region) : State := { s with regions := mset s.regions n x }
def State.port (s : State) (k : Nat) : Lnk := mget {} s.lnk k
def State.setPort (s : State) (k : Nat) (x : Lnk) : State := { s with lnk := mset s.lnk k x }
/-- CRT.c: the chip-route entry of a chip (R481). -/
def State.route (s : State) (c : Nat) : Crt := mget {} s.crt c
def State.wire (s : State) (n p : Nat) : List Flit := mget [] s.wires (8 * n + p)
def State.setWire (s : State) (n p : Nat) (fs : List Flit) : State := { s with wires := mset s.wires (8 * n + p) fs }

/-- The chip has failed: every engine and router is held (R629). -/
def State.dead (s : State) : Bool := s.hif.dev == 3 || s.mc.fatal

/-! ## Placement (R12 to R14, R28, R566, R567) -/

def lcCluster (l : Nat) : Nat := l / 64 / 8 * 8 + l % 64 / 8
def lcRow (l : Nat) : Nat := l / 64 % 8
def lcCol (l : Nat) : Nat := l % 8

/-- The logical core ID of a cluster's row and logical column. -/
def lcOf (cl row col : Nat) : Nat := (cl / 8 * 8 + row) * 64 + cl % 8 * 8 + col

/-- ROW.r of the unit map (Table 19-3). -/
def State.spare (s : State) (cl row : Nat) : Nat := mget 8 s.brg.umap.rows (8 * cl + row)

/-- A spare stands in for a logical core. -/
def State.standin (s : State) (l : Nat) : Bool := s.spare (lcCluster l) (lcRow l) == lcCol l

/-- The physical column of a logical core (R566). -/
def State.pcol (s : State) (l : Nat) : Nat := if s.standin l then 8 else lcCol l

/-- The physical core: cluster × 72 + row × 9 + pcol (R14). -/
def State.phys (s : State) (l : Nat) : Nat := lcCluster l * 72 + lcRow l * 9 + s.pcol l

/-- The mesh position of a physical core: pr × 72 + pc (R377). -/
def nodeOf (phys : Nat) : Nat :=
  let cl := phys / 72
  (cl / 8 * 8 + phys / 9 % 8) * 72 + cl % 8 * 9 + phys % 9

/-- The physical core at a mesh position. -/
def physOf (n : Nat) : Nat := (n / 72 / 8 * 8 + n % 72 / 9) * 72 + n / 72 % 8 * 9 + n % 9

/-- The logical core at a physical core, when one lives there (R566). -/
def State.logical (s : State) (phys : Nat) : Option Nat :=
  let cl := phys / 72
  let row := phys / 9 % 8
  let code := s.spare cl row
  let pcol := phys % 9
  if pcol = 8 then (if code < 8 then some (lcOf cl row code) else none)
  else if code = pcol then none else some (lcOf cl row pcol)

/-- A cluster is present (R565, R646, R647). -/
def State.clPresent (s : State) (n : Nat) : Bool := s.brg.umap.clusters.getLsbD n && !s.brg.badClusters.getLsbD n

/-- A logical core is present: its cluster is, and its physical core has not failed (R567, R646). -/
def State.present (s : State) (l : Nat) : Bool := s.clPresent (lcCluster l) && !s.brg.bad.contains (s.phys l)

/-- A stack site and a port are present on the part (R3, R573). -/
def State.sitePresent (s : State) (h : Nat) : Bool := s.brg.umap.sites.getLsbD h
def State.portPresent (s : State) (k : Nat) : Bool := s.brg.umap.ports.getLsbD k

/-- The half of a cluster, a stack site and a port: true is East (R13, Tables 1-1 and 12-1). -/
def clEast (n : Nat) : Bool := decide (4 ≤ n % 8)
def siteEast (h : Nat) : Bool := decide (3 ≤ h)
def portEast (k : Nat) : Bool := decide (4 ≤ k)
def State.half (s : State) (east : Bool) : Half := if east then s.pwr.e else s.pwr.w

/-- The PCI device ID of a part, by its fuse code (Table 0-1). -/
def partDevid (p : Nat) : Nat := 0x0D10 + p

/-! ## A core's view of its chip -/

/-- A stream-table entry (Table 12-6). -/
def stabV (w : Word) : Bool := bit w 63
def stabIn (w : Word) : Nat := fld w 60 3
def stabOut (w : Word) : Nat := fld w 55 5
def stabStream (w : Word) : Nat := fld w 0 10

/-- What core l reads of the chip. -/
def State.env (s : State) (l : Nat) : Env :=
  let rt := s.router (nodeOf (s.phys l))
  { tb := s.tb, chip := s.chipId, lcid := l
    vcore := decide (lcCol l = 3 ∨ lcCol l = 7)
    standin := s.standin l
    cluster := lcCluster l, row := lcRow l, pcol := s.pcol l
    blxLocal := BitVec.ofNat 8 (((List.range 8).map fun n => b2n (s.line n).isLocal * 2 ^ n).sum)
    blxBrk := BitVec.ofNat 8 (((List.range 8).map fun n => b2n (s.line n).brk * 2 ^ n).sum)
    injects := rt.stab.filterMap fun p => if stabV p.2 ∧ stabIn p.2 = 4 then some (stabStream p.2) else none }

/-! ## Records (R634 to R638) -/

/-- The source of a record: UKIND and PUNIT, as ERR.SEL names it. -/
def ErrRec.source (r : ErrRec) : Nat := r.ukind * 65536 + r.punit % 65536

/-- The counter of a source and class. -/
def cntKey (source cls : Nat) : Nat := source * 256 + cls % 256

/-- Two records are identical (R636). -/
def ErrRec.same (a b : ErrRec) : Bool :=
  a.cls == b.cls && a.sev == b.sev && a.ukind == b.ukind && a.lunit == b.lunit && a.punit == b.punit && a.key == b.key

/-- Adding one occurrence to the newest record of a source, when it is identical. -/
def coalesce (r : ErrRec) : List Rec → Option (List Rec)
  | [] => none
  | x :: rest =>
    match coalesce r rest with
    | some y => some (x :: y)
    | none =>
      if rest.any (fun y => y.r.source == r.source) then none
      else if x.r.source = r.source ∧ x.r.same r then some ({ x with rep := min (2 ^ 32 - 1) (x.rep + 1) } :: rest)
      else none

/-- A record arrives at a queue: counted, coalesced, queued or dropped (R636 to R638). -/
def ErrQ.add (q : ErrQ) (tb chip : Nat) (r : ErrRec) : ErrQ :=
  let q1 := { q with cnt := mupd 0 q.cnt (cntKey r.source r.cls) fun v => min (2 ^ 32 - 1) (v + 1) }
  match coalesce r q1.recs with
  | some rs => { q1 with recs := rs }
  | none =>
    if q1.recs.length < 64 then
      let rs := q1.recs ++ [{ tb := tb, r := r, chip := chip }]
      { q1 with recs := rs, peak := max q1.peak rs.length }
    else { q1 with unrep := q1.unrep + 1, lost := mupd 0 q1.lost r.cls fun v => min (2 ^ 32 - 1) (v + 1) }

/-- The queue of a source in a cluster, and the MC's intake queue for the others (R635). -/
def ErrRec.queue (r : ErrRec) : Nat :=
  if r.ukind = 0 ∨ r.ukind = 1 then r.punit / 1024 % 64 else if r.ukind = 2 then r.lunit else 48

/-- Writing a record to a queue. -/
def State.recordAt (s : State) (q : Nat) (r : ErrRec) : State :=
  { s with errs := mupd {} s.errs q fun x => x.add s.tb s.chipId r }

/-- Writing a record. -/
def State.record (s : State) (r : ErrRec) : State := s.recordAt r.queue r

/-- Records whose source is the MC or spine, the host interface, a link port or an HBM site. -/
def State.mcRecord (s : State) (cls sev key detail : Nat) : State :=
  s.record { cls := cls, sev := sev, ukind := 7, key := key, detail := detail }
def State.hostRecord (s : State) (cls sev key detail : Nat) : State :=
  s.record { cls := cls, sev := sev, ukind := 8, key := key, detail := detail }
def State.portRecord (s : State) (k lane cls sev key detail : Nat) : State :=
  s.record { cls := cls, sev := sev, ukind := 5, lunit := k, punit := lane, key := key, detail := detail }
def State.siteRecord (s : State) (h pc cls sev key detail : Nat) : State :=
  s.record { cls := cls, sev := sev, ukind := 4, lunit := h, punit := pc, key := key, detail := detail }

/-- PUNIT of a physical core or of the router there (Table 22-6). -/
def punitOf (phys : Nat) : Nat := phys / 72 * 1024 + phys / 9 % 8 * 128 + phys % 9 * 8

/-- PUNIT of a router or mesh endpoint: Table 22-6 gives endpoints none (log entry 21). -/
def nodePunit (n : Nat) : Nat := if n < 3456 then punitOf (physOf n) else 0

/-- Records whose source is a core's CC acting for the core, or a router. -/
def State.coreRecord (s : State) (l t cls sev key detail : Nat) : State :=
  s.record { cls := cls, sev := sev, ukind := 0, lunit := l, punit := punitOf (s.phys l) + t, key := key, detail := detail }
def State.routerRecord (s : State) (n cls sev key detail : Nat) : State :=
  s.recordAt (if n < 3456 then physOf n / 72 else 48) { cls := cls, sev := sev, ukind := 1, punit := nodePunit n, key := key, detail := detail }

/-! ## Urgent units (R471 to R473, Table 15-5) -/

/-- The place of a kind in the priority order of Table 15-5. -/
def urgentRank (kind : Nat) : Nat :=
  match kind with
  | 6 => 0 | 1 => 1 | 5 => 2 | 7 => 3 | 2 => 4 | 8 => 5 | 3 => 6 | 4 => 7 | _ => 8

/-- A unit of a kind that takes a USEQ. -/
def urgentSequenced (kind : Nat) : Bool := kind == 6 || kind == 1 || kind == 7 || kind == 4

/-- Making a unit ready at a port that is ON; one BARRIER unit that has not been sent yet carries every line's events. -/
def Lnk.ready (p : Lnk) (kind : Nat) (body : BitVec 96) : Lnk :=
  if p.fsm.st != .on then p
  else if kind = 1 ∧ p.uready.any (fun u => u.kind == 1 && u.useq == 255) then
    { p with uready := p.uready.map fun u => if u.kind = 1 ∧ u.useq = 255 then { u with body := u.body ||| body } else u }
  else { p with uready := p.uready ++ [{ kind := kind, body := body }] }

/-- Making a unit ready on every port of a mask. -/
def State.urgent (s : State) (ports : Nat → Bool) (kind : Nat) (body : BitVec 96) : State :=
  { s with lnk := (List.range 8).foldl (fun l k => if ports k then mupd {} l k fun p => p.ready kind body else l) s.lnk }

/-- The body of a BARRIER unit for one line: ARRIVE in bit 4n + 3, COMPLETE in 4n + 2, BROKEN in 4n + 1, the parity in 4n. -/
def barrierBody (n : Nat) (arrive complete broken parity : Bool) : BitVec 96 :=
  BitVec.ofNat 96 ((b2n arrive * 8 + b2n complete * 4 + b2n broken * 2 + b2n parity) * 2 ^ (4 * n))

/-! ## Broken lines (R346) -/

/-- A port that a line names in UP or DOWN. -/
def Blx.names (x : Blx) (k : Nat) : Bool := x.down.getLsbD k || (x.upv && x.up == k)

/-- A line becomes broken on this die: the bit, BROKEN on the ports other than the one it came from, and the record. -/
def State.breakLine (s : State) (n cause arg : Nat) (origin : Option Nat) : State :=
  let x := s.line n
  if x.brk then s
  else
    let s1 := s.setLine n { x with brk := true }
    let s2 := s1.urgent (fun k => x.names k && origin != some k) 1 (barrierBody n false false true x.parity)
    s2.mcRecord 0x0D 2 n (cause + arg * 256)

/-- Every line that names a port becomes broken (R346, R478). -/
def State.breakPort (s : State) (k cause : Nat) : State :=
  (List.range 8).foldl (fun s n => if (s.line n).names k then s.breakLine n cause k none else s) s

/-! ## The region table (R439 to R441) -/

/-- 256-byte blocks of one pseudo-channel (R439). -/
def pcBlocks : Nat := 9765625

/-- The key of a byte of a stack: pseudo-channel, block and byte. -/
def hbmKey (pc block byte : Nat) : Nat := (pc * pcBlocks + block) * 256 + byte

/-- The stacks that an entry covers, in ascending site order (Table 14-2). -/
def State.covered (s : State) (r : Region) : List Nat :=
  match r.mode with
  | 0 => (List.range 6).filter s.sitePresent
  | 1 => (List.range 6).filter fun h => s.sitePresent h && (siteEast h == decide (r.tgt = 1))
  | _ => if s.sitePresent r.tgt then [r.tgt] else []

/-- P of an entry (Table 14-2). -/
def State.coveredPcs (s : State) (r : Region) : Nat := if r.mode = 3 then 2 else 32 * (s.covered r).length

/-- `translate` of R440: site, pseudo-channel, block and byte. -/
def State.translateIn (s : State) (r : Region) (o : Nat) : Nat × Nat × Nat × Nat :=
  let b := (o - r.vbase) / 256
  let byte := (o - r.vbase) % 256
  if r.mode = 3 then (r.tgt, 2 * r.ch + b % 2, r.pbase + b / 2, byte)
  else
    let st := s.covered r
    let n := st.length
    let c := b / n
    (st.getD (b % n) 0, c % 32, r.pbase + c / 32, byte)

/-- An entry is in force at some point: it is ON, or STOPPING. -/
def Region.inForce (r : Region) : Bool := r.fsm.st == .on || r.fsm.st == .stopping

/-- A point's copy of entry n holds it: from the step in which it is ON until the point drops it in STOPPING (R441, R443). -/
def Region.heldAt (r : Region) (pt n tb : Nat) : Bool :=
  r.fsm.st == .on || (r.fsm.st == .stopping && decide (tb < r.stopAt + Config.dropAfter pt n r.stops))

/-- Translating an offset at a point: site and byte key, or nothing (R441). -/
def State.translate (s : State) (pt o : Nat) : Option (Nat × Nat) :=
  match s.regions.find? (fun p => p.2.heldAt pt p.1 s.tb && decide (p.2.vbase ≤ o) && decide (o < p.2.vbase + p.2.size)) with
  | some p => let x := s.translateIn p.2 o; some (x.1, hbmKey x.2.1 x.2.2.1 x.2.2.2)
  | none => none

/-- The pseudo-channel of a byte key. -/
def keyPc (key : Nat) : Nat := key / 256 / pcBlocks
/-- The block of a byte key. -/
def keyBlock (key : Nat) : Nat := key / 256 % pcBlocks

end Sys2Proof.Machine
end

