-- ==== Sys2Proof/Machine/Svc.lean ====
section
/-! DEFINITION. Sending on the service network, the items and flits of the data mesh, and what leaves a core (spec 12 R382, R401 to R404, Table 12-3; 15 R481 to R483; 22 Table 22-4). -/

namespace Sys2Proof.Machine

/-! ## Units on the service network (R401) -/

def unitCC (n : Nat) : Nat := 4096 + n
def unitHbm (h j : Nat) : Nat := 8192 + 16 * h + j
def unitMc : Nat := 16384
def unitPcie : Nat := 16385
/-- The memory of another chip: which of its sites answers is known there only. -/
def unitMemory : Nat := 20000

/-- A unit of a chip. -/
def unitOf (chip u : Nat) : Nat := chip * 65536 + u
def unitChip (u : Nat) : Nat := u / 65536
def unitLocal (u : Nat) : Nat := u % 65536

/-- A cluster's window of management space: its number, from a kind-4 offset (R654, Table 23-2). -/
def mgmtCluster (o : Nat) : Option Nat := if 0x300_0000 ≤ o ∧ o < 0x300_0000 + 48 * 0x40_0000 then some ((o - 0x300_0000) / 0x40_0000) else none

/-- Whether a unit of this chip lies in a half: none for the spine. -/
def unitEast (u : Nat) : Option Bool :=
  let l := unitLocal u
  if l < 3072 then some (clEast (lcCluster l))
  else if 4096 ≤ l ∧ l < 4144 then some (clEast (l - 4096))
  else if 8192 ≤ l ∧ l < 8288 then some (siteEast ((l - 8192) / 16))
  else none

/-- Where a packet for a system address goes: the unit, and for HBM the site's byte key; or an error kind of Table 22-4 (R408, R441, R453, R481 to R483, R567, R584). An offset of this chip's HBM is translated at point `pt`. -/
def State.svcTarget (s : State) (pt : Nat) (a0 : Word) : Except Nat (Nat × Option Nat) :=
  let a := if saChip a0 = 4095 then mkSa s.chipId (saKind a0) (saOff a0) else a0
  let chip := saChip a
  if chip ≠ s.chipId then
    if s.chipId = 4095 then .error 2
    else match (if (s.route chip).v then some (s.route chip).port else none) with
      | none => .error 2
      | some p =>
        if (s.port p).fsm.st = .on ∨ (s.port p).fsm.st = .stopping then
          .ok (unitOf chip (if saKind a = 1 ∨ saKind a = 2 then saLcid a else if saKind a = 3 then unitPcie
            else if saKind a = 4 then (match mgmtCluster (saOff a) with | some n => unitCC n | none => unitMc) else unitMemory), none)
        else .error 7
  else
    let here (u : Nat) : Nat := unitOf s.chipId u
    let core (l : Nat) : Except Nat (Nat × Option Nat) :=
      if 3072 ≤ l then .error 6
      else if !(s.half (clEast (lcCluster l))).on then .error 5
      else if !s.present l then .error 6
      else match (s.cl (lcCluster l)).st with
        | .off | .starting => .error 5
        | _ => .ok (here l, none)
    match saKind a with
    | 0 =>
      match s.translate pt (saOff a) with
      | none => .error 1
      | some (h, key) =>
        if !(s.half (siteEast h)).on ∨ (s.stk h).fsm.st ≠ .on then .error 5
        else .ok (here (unitHbm h (keyPc key / 2)), some key)
    | 1 => if fld a 36 12 ≠ 0 then .error 1 else core (saLcid a)
    | 2 => if fld a 36 12 ≠ 0 ∨ fld a 16 8 ≠ 0 then .error 1 else core (saLcid a)
    | 3 => .ok (here unitPcie, none)
    | 4 =>
      match mgmtCluster (saOff a) with
      | some n => if (s.half (clEast n)).on then .ok (here (unitCC n), none) else .error 5
      | none => .ok (here unitMc, none)
    | _ => .error 1

/-- The class of a packet: 0 request, 1 response, 2 management (R402). -/
def SvcBody.cls : SvcBody → Nat
  | .readResp .. | .ack | .err _ | .incLost _ | .grant .. | .refusal .. => 1
  | .closeNotice .. | .abandon .. | .markBroken _ => 2
  | _ => 0

/-- What the issuer of a request meets when its packet cannot reach the target (R356, R483, Table 22-4); nothing answers the other kinds. -/
def SvcBody.failed (kind : Nat) : SvcBody → Option SvcBody
  | .read .. | .write .. | .inc .. => some (.err kind)
  | .openReq _ _ _ cho _ => some (.refusal cho kind)
  | _ => none

/-- The key of a packet's sequence number (R404). -/
def seqKey (src dst cls : Nat) : Nat := (src * 2 ^ 28 + dst) * 4 + cls

/-- Placing a packet that waits for a unit's own command. -/
def State.inbox (s : State) (m : InMsg) : State := { s with svc := { s.svc with inbox := s.svc.inbox ++ [m] } }

/-- Taking the first message of a unit that meets a condition. -/
def takeFirst (f : InMsg → Bool) : List InMsg → Option (InMsg × List InMsg)
  | [] => none
  | m :: r => if f m then some (m, r) else (takeFirst f r).map fun p => (p.1, m :: p.2)

def State.takeInbox (s : State) (f : InMsg → Bool) : Option (InMsg × State) :=
  (takeFirst f s.svc.inbox).map fun p => (p.1, { s with svc := { s.svc with inbox := p.2 } })

/-- Payload flits of a packet and whether a word of it is marked (R402): the data of a kind that carries data, else one flit (log entry 24). -/
def SvcBody.payload : SvcBody → Nat × Bool
  | .readResp d _ pz => ((d.length + 7) / 8, pz != [])
  | .write _ d pz _ _ => ((d.length + 7) / 8, pz != [])
  | .message m => (2 + (m.data.length + 7) / 8, m.pz != [])
  | _ => (1, false)

/-- The cells that carry a packet: two header flits and the payload, 32 flits to a cell, 24 with marks (R461, R462). -/
def SvcPkt.cells (p : SvcPkt) : List SvcWire :=
  let x := p.body.payload
  let per := if x.2 then 24 else 32
  List.replicate ((x.1 + 1) / per) (.pkt p false) ++ [.pkt p true]

/-- Putting packets on a port's VL1. -/
def State.toPort (s : State) (k : Nat) (ws : List SvcWire) : State :=
  s.setPort k (let l := s.port k; { l with tx1 := l.tx1 ++ ws })

/-- The port towards a chip (R483). -/
def State.portTo (s : State) (chip : Nat) : Option Nat := if (s.route chip).v then some (s.route chip).port else none

/-- Sending a packet from a unit of this chip: kept until acknowledged, put on the link's VL1 when its target is another chip, or answered at once with an error (R404, R408, R483). -/
def State.svcSend (s : State) (src : Nat) (back dst : Word) (xid : Nat) (body : SvcBody) : State :=
  match s.svcTarget (unitLocal src) dst with
  | .error kind =>
    match body.failed kind with
    | some b => s.inbox { unit := src, src := src, addr := back, back := dst, xid := xid, body := b }
    | none => s
  | .ok (u, phys) =>
    let cls := body.cls
    let k := seqKey src u cls
    let n := mget 0 s.svc.nextSeq k
    let p : SvcPkt := { src := src, dst := u, cls := cls, seq := n, addr := dst, back := back, xid := xid, body := body, phys := phys, sentAt := s.tb, born := s.tb }
    let s1 := { s with svc := { s.svc with out := s.svc.out ++ [p], nextSeq := mset s.svc.nextSeq k ((n + 1) % 65536) } }
    if unitChip u = s.chipId then s1
    else match s.portTo (unitChip u) with
      | some k => s1.toPort k p.cells
      | none => s1

/-- Answering a packet of another chip on the port that brought it: its acknowledgement, and the error response if it draws one, which needs no chip ID of this chip (R481). -/
def State.svcReturn (s : State) (p : SvcPkt) (body : Option SvcBody) : State :=
  let k := (s.portTo (unitChip p.src)).getD p.inPort
  let s1 := s.toPort k [.ack p.src p.dst p.cls p.seq]
  match body with
  | none => s1
  | some b =>
    let src := unitOf s.chipId unitMc
    let q := seqKey src p.src b.cls
    let n := mget 0 s1.svc.nextSeq q
    let r : SvcPkt := { src := src, dst := p.src, cls := b.cls, seq := n, addr := p.back, back := mkSa s.chipId 4 0, xid := p.xid, body := b, sentAt := s.tb, born := s.tb }
    ({ s1 with svc := { s1.svc with out := s1.svc.out ++ [r], nextSeq := mset s1.svc.nextSeq q ((n + 1) % 65536) } } : State).toPort k r.cells

/-- What becomes of a request that can go no further: an increment that a failed path discards after its sequence number was issued may be lost (R334); any other request draws an error response. -/
def SvcBody.bounced (kind : Nat) (b : SvcBody) : Option SvcBody :=
  match b with
  | .inc a _ => if kind = 7 then some (.incLost a) else some (.err kind)
  | _ => b.failed kind

/-- An increment of a unit of this chip may have been lost: the issuer's CC records it, and the MC has the counter marked broken; nothing of this when the target's chip is known to be down (R334, Table 10-2). The core forgets the increment, if it has not been reset since. -/
def State.incLost (s : State) (src xid : Nat) (a : Word) : State :=
  let l := unitLocal src
  let s1 := if l < 3072 then let c := s.coreAt l; s.setCore l { c with writes := c.writes.filter fun w => !(w.inc && w.xid == xid) } else s
  if saChip a ≠ s.chipId ∧ s.mc.chipsDown.contains (saChip a) then s1
  else
    let s2 := s1.coreRecord l 0 0x0C 2 ((saCounter a).getD 0) (s.chipId * 4096 + l)
    s2.svcSend (unitOf s.chipId unitMc) (saCore s.chipId 1 l 0) a 0 (.markBroken a)

/-- A packet that can go no further is answered with an error response of a kind: its source here meets it at once, a source elsewhere gets it as a packet, with the acknowledgement that frees its copy (R478, R483). -/
def State.svcBounce (s : State) (p : SvcPkt) (kind : Nat) : State :=
  let s1 := { s with svc := { s.svc with out := s.svc.out.filter fun q => !(q.src == p.src && q.dst == p.dst && q.cls == p.cls && q.seq == p.seq) } }
  if unitChip p.src = s.chipId then
    match p.body.bounced kind with
    | some (.incLost a) => s1.incLost p.src p.xid a
    | some b => s1.inbox { unit := p.src, src := p.src, addr := p.back, back := p.addr, xid := p.xid, body := b }
    | none => s1
  else
    s1.svcReturn p (p.body.bounced kind)

/-- Answering a message that a unit has taken. -/
def State.answer (s : State) (m : InMsg) (body : SvcBody) : State := s.svcSend m.unit m.addr m.back m.xid body

/-! ## Items as flits (R382, Table 12-3) -/

/-- Bytes cut into flits of 64, the last one padded. -/
def flitData (bs : List Byte) : List (List Byte) :=
  (List.range ((bs.length + 63) / 64)).map fun i =>
    let d := (bs.drop (64 * i)).take 64
    d ++ List.replicate (64 - d.length) 0

/-- Packed data words that hold a byte of a marked word: a mark names a word by its place from the aligned address of the first byte. -/
def packMarks (o n : Nat) (pz : List Nat) : List Nat :=
  (List.range ((n + 7) / 8)).filter fun k => (List.range (min 8 (n - 8 * k))).any fun i => pz.contains ((o % 8 + 8 * k + i) / 8)

/-- The same the other way. -/
def unpackMarks (o n : Nat) (pz : List Nat) : List Nat :=
  (List.range ((o % 8 + n + 7) / 8)).filter fun j =>
    (List.range n).any fun i => decide ((o % 8 + i) / 8 = j) && pz.contains (i / 8)

/-- The PSN byte of a flit whose first data word is number w. -/
def psnByte (w : Nat) (pz : List Nat) : BitVec 8 := BitVec.ofNat 8 (((List.range 8).map fun k => b2n (pz.contains (w + k)) * 2 ^ k).sum)

/-- The number of an item's kind. -/
def Item.kind : Item → Nat
  | .message _ => 0 | .write .. => 1 | .writeResp .. => 2 | .readReq .. => 3 | .readData .. => 4 | .credit .. => 5 | .closeReq .. => 6

/-- A header flit of two words. -/
def headFlit (w0 w1 : Word) : List Byte := leBytes 8 w0.toNat ++ leBytes 8 w1.toNat ++ List.replicate 48 0

/-- The data of an item's flits, with the packed words that are marked, counted from the first flit. -/
def Item.chunks : Item → List (List Byte) × List Nat
  | .message m =>
    (flitData (headerBytes m 0 ++ m.data), m.pz.map fun w => w + 2)
  | .write a d pz => (headFlit a (pack [(d.length, 0, 13)]) :: flitData d, (packMarks a.toNat d.length pz).map fun w => w + 8)
  | .writeResp a st => ([headFlit a (pack [(st, 0, 8)])], [])
  | .readReq a n => ([headFlit a (pack [(n, 0, 13)])], [])
  | .readData a n st d pz => (headFlit a (pack [(n, 0, 13), (st, 16, 8)]) :: flitData d, (packMarks a.toNat d.length pz).map fun w => w + 8)
  | .credit ep cho u => ([headFlit (pack [(ep, 48, 16), (cho, 16, 6), (u, 0, 16)]) 0], [])
  | .closeReq ep chi => ([headFlit (pack [(ep, 48, 16), (chi, 0, 6)]) 0], [])

/-- The flits of an item on a stream. -/
def Item.flits (stream : Nat) (x : Item) : List Flit :=
  let (cs, pz) := x.chunks
  (List.range cs.length).map fun i =>
    { stream := stream, kind := x.kind, hd := i == 0, tr := i + 1 == cs.length, psn := psnByte (8 * i) pz, data := cs.getD i [] }

/-- Word i of bytes. -/
def wordAt (bs : List Byte) (i : Nat) : Word := BitVec.ofNat 64 (leNat ((bs.drop (8 * i)).take 8))

/-- The marked packed words of flits, counted from the first. -/
def flitMarks (fs : List Flit) : List Nat :=
  (List.range fs.length).flatMap fun i =>
    (List.range 8).filterMap fun k => if ((fs.getD i { stream := 0, hd := false, tr := false, data := [] }).psn).getLsbD k then some (8 * i + k) else none

/-- A message from the two words of its header, its payload not yet filled in (Table 5-4). -/
def headerMsg (w0 w1 : Word) : Msg :=
  { epoch := fld w0 48 16, chi := fld w0 40 8 % 64, seq := fld w1 32 32, cho := fld w1 24 8, chip := fld w1 12 12, lcid := fld w1 0 12
    psn := bit w0 32, data := List.replicate (fld w0 0 16) 0 }

/-- The item that flits spell (Table 12-3, Table 5-4). -/
def itemOf (fs : List Flit) : Item :=
  let bs := fs.flatMap Flit.data
  let marks := flitMarks fs
  let w0 := wordAt bs 0
  let w1 := wordAt bs 1
  let n := fld w1 0 13
  let dpz := (marks.filter fun w => decide (8 ≤ w)).map fun w => w - 8
  match (fs.head?.map Flit.kind).getD 0 with
  | 0 =>
    let m := headerMsg w0 w1
    let pz := (marks.filter fun w => decide (2 ≤ w)).map fun w => w - 2
    -- a mark that the payload gained on its way sets POISON too (Table 5-4)
    .message { m with data := (bs.drop 16).take m.data.length, pz := pz, psn := m.psn || !pz.isEmpty }
  | 1 => .write w0 ((bs.drop 64).take n) (unpackMarks w0.toNat n dpz)
  | 2 => .writeResp w0 (fld w1 0 8)
  | 3 => .readReq w0 n
  | 4 => .readData w0 n (fld w1 16 8) ((bs.drop 64).take n) (unpackMarks w0.toNat n dpz)
  | 5 => .credit (fld w0 48 16) (fld w0 16 6) (fld w0 0 16)
  | _ => .closeReq (fld w0 48 16) (fld w0 0 6)

/-! ## What leaves a core -/

/-- Putting flits on the wire into an input port. -/
def State.putFlits (s : State) (n p : Nat) (fs : List Flit) : State := s.setWire n p (s.wire n p ++ fs)

/-- One thing that a core sends. -/
def State.applyEmit (s : State) (l : Nat) : Emit → State
  | .svc dst xid body => s.svcSend (unitOf s.chipId l) (saCore s.chipId 1 l 0) dst xid body
  | .inject st x => s.putFlits (nodeOf (s.phys l)) 4 (x.flits st)
  | .record r => s.record r
  | .lineBroken n => s.breakLine n 1 l none
  | .streamFail st => { s with mc := { s.mc with fails := s.mc.fails ++ [{ node := nodeOf (s.phys l), stream := st, here := true }] } }

def State.applyEmits (s : State) (l : Nat) (em : List Emit) : State := em.foldl (fun s e => s.applyEmit l e) s

/-- A step of core l: its own part, and then what leaves it. -/
def State.onCore (s : State) (l : Nat) (f : Env → Core → Core × List Emit) : State :=
  let r := f (s.env l) (s.coreAt l)
  (s.setCore l r.1).applyEmits l r.2

/-- A step of core l that sends nothing. -/
def State.onCore' (s : State) (l : Nat) (f : Env → Core → Core) : State := s.setCore l (f (s.env l) (s.coreAt l))

/-- A step of core l while it is out of core reset. -/
def State.onLive (s : State) (l : Nat) (f : Env → Core → Core × List Emit) : State :=
  if (s.coreAt l).held then s else s.onCore l f
def State.onLive' (s : State) (l : Nat) (f : Env → Core → Core) : State := if (s.coreAt l).held then s else s.onCore' l f

/-- Core reset by core l's CC: what waits for the core goes too (R77, R649). -/
def State.resetCore (s : State) (l : Nat) : State :=
  let s1 := s.onCore l coreReset
  { s1 with svc := { s1.svc with inbox := s1.svc.inbox.filter fun m => m.unit != unitOf s.chipId l } }

/-- Holding a core in core reset, or letting it go. -/
def State.holdCore (s : State) (l : Nat) (held : Bool) : State := s.setCore l { s.coreAt l with held := held }

end Sys2Proof.Machine
end

