-- ==== Sys2Proof/Machine/Issue.lean ====
section
/-! DEFINITION. Issuing an instruction word as a command: the thread that has fetched it, what issue checks first, and its own part. -/

namespace Sys2Proof.Machine

/-- The word issues in thread t of core c (log entry 12). -/
def State.word (s : State) (c : CoreId) (t : Thr) (i : Env → Thread → IssueInfo) (body : Body) : Out :=
  .next (s.onCore c.val fun e k => issue e k t.val (i e) body)

end Sys2Proof.Machine
end

