-- ==== Sys2Proof/Machine/ExecThread.lean ====
section
/-! DEFINITION. Meanings: entries, timers, exception registers, thread states, dispatch and core reset as events (spec 02 R42 to R61, R74 to R77; 04 R134 to R163, R683; 17 R534). -/

namespace Sys2Proof.Machine

/-- An event of core c that leaves a core held in core reset unchanged. -/
def State.event (s : State) (c : CoreId) (f : Env → Core → Core × List Emit) : Out := .next (s.onLive c.val f)
/-- The same for an event that sends nothing. -/
def State.event' (s : State) (c : CoreId) (f : Env → Core → Core) : Out := .next (s.onLive' c.val f)
/-- The same for an event of one enabled thread context. -/
def State.threadEvent (s : State) (c : CoreId) (t : Thr) (f : Env → Core → Core) : Out :=
  s.event' c fun e k => if t.val < e.nthr then f e k else k

/-- ASYNC_EVENT_TAKEN (R683). -/
def execAsyncEventTaken (c : CoreId) (t : Thr) (s : State) : Out :=
  s.event c fun e k => if t.val < e.nthr then k.settleAfter e (asyncTaken e k t.val) else (k, [])

/-- WATCHDOG_EXPIRY (R163). -/
def execWatchdogExpiry (c : CoreId) (t : Thr) (s : State) : Out := s.threadEvent c t fun e k => watchdogExpiry e k t.val

/-- TIMER_COMPARE_FIRE (R534). -/
def execTimerCompareFire (c : CoreId) (t : Thr) (s : State) : Out := s.threadEvent c t fun e k => timerFire e k t.val

/-- TMR_WAIT_READ: an IN of TMR.n.WAIT (R534). -/
def execTmrWaitRead (c : CoreId) (t : Thr) (rd : Reg) (n : Thr) (s : State) : Out :=
  s.word c t (fun _ => writesReg rd.val) (opIn rd.val 0 (0x2A80 + 8 * n.val))

/-- XSWI_RAISE (R162). -/
def execXswiRaise (c : CoreId) (n : Thr) (s : State) : Out := s.threadEvent c n fun _ k => xswiRaise k n.val

/-- XPEND_CLEAR (R162). -/
def execXpendClear (c : CoreId) (n : Thr) (v : Word) (s : State) : Out := s.threadEvent c n fun _ k => xpendClear k n.val v

/-- XST_WRITE (R140, R162). -/
def execXstWrite (c : CoreId) (n : Thr) (who : Option Thr) (v : Word) (s : State) : Out :=
  s.threadEvent c n fun _ k => xstWrite k n.val (who.map Fin.val) v

/-- XWDT_WRITE (R162, R163). -/
def execXwdtWrite (c : CoreId) (n : Thr) (who : Option Thr) (v : Word) (s : State) : Out :=
  s.threadEvent c n fun e k => xwdtWrite e k n.val (who.map Fin.val) v

/-- THR_START (R43, R76). -/
def execThrStart (c : CoreId) (t : Thr) (s : State) : Out := s.event' c fun e k => thrStart e k t.val
/-- THR_HALT (R44). -/
def execThrHalt (c : CoreId) (t : Thr) (s : State) : Out := s.event c fun e k => k.settleAfter e (thrHalt e k t.val, [])
/-- THR_PARK (R43). -/
def execThrPark (c : CoreId) (t : Thr) (s : State) : Out := s.event' c fun e k => thrPark e k t.val
/-- THR_UNPARK (R45). -/
def execThrUnpark (c : CoreId) (t : Thr) (s : State) : Out := s.event' c fun e k => thrUnpark e k t.val

/-- CORE_PARK (R74). -/
def execCorePark (c : CoreId) (s : State) : Out := s.event' c corePark
/-- CORE_UNPARK (R43). -/
def execCoreUnpark (c : CoreId) (s : State) : Out := s.event c coreUnpark
/-- CORE_DISPATCH_ENABLE (R56). -/
def execCoreDispatchEnable (c : CoreId) (on : Bool) (s : State) : Out := s.event' c fun _ k => { k with dispen := on }
/-- CORE_LOCK: only core reset ends it (R19). -/
def execCoreLock (c : CoreId) (s : State) : Out := s.event' c fun _ k => { k with lock := true }
/-- QOWN_WRITE (R51, R684). -/
def execQownWrite (c : CoreId) (v : BitVec 16) (s : State) : Out := s.event' c fun e k => qownWrite e k v
/-- HANDLER_DISPATCH (R56 to R58). -/
def execHandlerDispatch (c : CoreId) (s : State) : Out := s.event' c handlerDispatch
/-- WAIT_CONDITION_MET (R43, R45). -/
def execWaitConditionMet (c : CoreId) (t : Thr) (s : State) : Out :=
  s.event c fun e k => if t.val < e.nthr then k.settleAfter e (waitRetest e k t.val) else (k, [])
/-- CORE_RESET (R77, R649). -/
def execCoreReset (c : CoreId) (s : State) : Out := .next (s.resetCore c.val)

end Sys2Proof.Machine
end

