-- ==== Sys2Proof/Machine/Mesh.lean ====
section
/-! DEFINITION. The data mesh: positions and links, buffers, schedules, in-network reduction, route programs and their errors (spec 12 R377 to R400; 16 R508). -/

namespace Sys2Proof.Machine

/-! ## Positions and links (R377, R378, Table 12-1, R484) -/

def memNode (h j : Nat) : Nat := 3456 + 16 * h + j
def linkNode (k : Nat) : Nat := 3552 + k
/-- Site and channel of a memory port's node. -/
def nodeMem (n : Nat) : Nat × Nat := ((n - 3456) / 16, (n - 3456) % 16)

/-- The memory port at the N edge of column pc, or at its S edge. -/
def northPort (pc : Nat) : Option Nat :=
  let cx := pc / 9
  if pc % 9 = 8 then none
  else some (memNode ([0, 0, 1, 1, 3, 3, 4, 4].getD cx 0) (cx % 2 * 8 + pc % 9))
def southPort (pc : Nat) : Option Nat :=
  let cx := pc / 9
  if pc % 9 = 8 then none
  else if cx = 1 ∨ cx = 2 then some (memNode 2 ((cx - 1) * 8 + pc % 9))
  else if cx = 5 ∨ cx = 6 then some (memNode 5 ((cx - 5) * 8 + pc % 9))
  else none

/-- The mesh router that a memory port is attached to, and the router's port. -/
def memRouter (h j : Nat) : Nat × Nat :=
  let off := j / 8 * 9 + j % 8
  if h = 2 then (47 * 72 + 9 + off, 2) else if h = 5 then (47 * 72 + 45 + off, 2)
  else ([0, 18, 0, 36, 54].getD h 0 + off, 0)

/-- The mesh router of attachment i of PORT.k, and the router's port. -/
def linkRouter (k i : Nat) : Nat × Nat :=
  if k < 4 then ((12 * k + 4 + i) * 72, 3) else ((12 * (k - 4) + 4 + i) * 72 + 71, 1)

/-- The attachment of a link at row pr of the W or E edge. -/
def edgeLink (pr : Nat) (east : Bool) : Option (Nat × Nat) :=
  if 4 ≤ pr % 12 ∧ pr % 12 < 8 then some (linkNode (pr / 12 + if east then 4 else 0), pr % 12 - 4) else none

/-- Where a flit that leaves node n by port p goes: a node and an input port, 5 for out of the mesh there; none when nothing is connected. For a memory port 0 is the mesh and 4 the channel; for a link port 0 to 3 are the attachments and 4 the link (log entry 13). -/
def meshNext (n p : Nat) : Option (Nat × Nat) :=
  if n < 3456 then
    let pr := n / 72
    let pc := n % 72
    match p with
    | 0 => if 0 < pr then some (n - 72, 2) else (northPort pc).map fun m => (m, 0)
    | 1 => if pc < 71 then some (n + 1, 3) else edgeLink pr true
    | 2 => if pr < 47 then some (n + 72, 0) else (southPort pc).map fun m => (m, 0)
    | 3 => if 0 < pc then some (n - 1, 1) else edgeLink pr false
    | 4 => some (n, 5)
    | _ => none
  else if n < 3552 then
    let x := nodeMem n
    if p = 0 then some (memRouter x.1 x.2) else if p = 4 then some (n, 5) else none
  else if p < 4 then some (linkRouter (n - 3552) p) else if p = 4 then some (n, 5) else none

/-- The node and output port that feed input port p of node n; none when it is fed from out of the mesh. -/
def meshPrev (n p : Nat) : Option (Nat × Nat) := if p = 4 then none else meshNext n p

/-- The logical core at a mesh router, present and not disabled. -/
def State.coreAtNode (s : State) (n : Nat) : Option Nat :=
  if n < 3456 then (s.logical (physOf n)).filter s.present else none

/-- A node exists on this part: the memory ports of an absent stack and an absent port's attachments do not (R37, R452). -/
def State.nodePresent (s : State) (n : Nat) : Bool :=
  if n < 3456 then true else if n < 3552 then s.sitePresent (nodeMem n).1 else s.portPresent (n - 3552)

/-- A port that a route program may name (R395). -/
def State.portConnected (s : State) (n p : Nat) : Bool :=
  (match meshNext n p with | some m => s.nodePresent m.1 | none => false)
    && (decide (3456 ≤ n) || p != 4 || (s.coreAtNode n).isSome)

/-! ## Route programs (Tables 12-6 and 12-7) -/

def schedKind (w : Word) : Nat := fld w 62 2
def schedStream (w : Word) : Nat := fld w 48 10
def schedB (w : Word) : Nat := fld w 32 10
def schedOut (w : Word) : Nat := fld w 16 10
def schedType (w : Word) : Nat := fld w 12 2
def schedCount (w : Word) : Nat := fld w 0 8 + 1

def Router.stabOf (r : Router) (stream : Nat) : Option Word :=
  (r.stab.find? fun p => stabV p.2 && stabStream p.2 == stream).map Prod.snd
def Router.entry (r : Router) (p e : Nat) : Word := mget 0 r.sched (256 * p + e)
def Router.out (r : Router) (p : Nat) : Port := mget {} r.ports p
def Router.setOut (r : Router) (p : Nat) (x : Port) : Router := { r with ports := mset r.ports p x }
def Router.buf (r : Router) (p : Nat) : List BufFlit := mget [] r.bufs p
def Router.setBuf (r : Router) (p : Nat) (b : List BufFlit) : Router := { r with bufs := mset r.bufs p b }

/-- A bit mask of width 5 as a predicate. -/
def inMask (m p : Nat) : Bool := decide (m / 2 ^ p % 2 = 1)

/-- A schedule entry that names a reserved field other than zero (Table 12-7). -/
def schedReserved (w : Word) : Bool :=
  match schedKind w with
  | 0 => w != 0
  | 1 => decide (fld w 58 4 ≠ 0 ∨ fld w 8 40 ≠ 0)
  | 2 => decide (fld w 58 4 ≠ 0 ∨ fld w 42 6 ≠ 0 ∨ fld w 26 6 ≠ 0 ∨ fld w 14 2 ≠ 0 ∨ fld w 8 4 ≠ 0)
  | _ => decide (fld w 24 37 ≠ 0)

/-- What a stream-table and a schedule entry read as: reserved fields read as zero (R20), though the entry keeps what was written for the check of the start (R395). -/
def stabShown (w : Word) : Word := w &&& BitVec.ofNat 64 0xFF80_0000_0000_03FF
def schedShown (w : Word) : Word :=
  match schedKind w with
  | 0 => 0
  | 1 => w &&& BitVec.ofNat 64 0xC3FF_0000_0000_00FF
  | 2 => w &&& BitVec.ofNat 64 0xC3FF_03FF_03FF_30FF
  | _ => w &&& BitVec.ofNat 64 0xE000_0000_00FF_FFFF

/-- The refusals of a start (R395). -/
def State.routeRefused (s : State) (n : Nat) : Bool :=
  let r := s.router n
  let vs := (r.stab.map Prod.snd).filter stabV
  let dup := vs.any fun a => decide (1 < vs.countP fun b => stabStream b == stabStream a)
  let port (w : Word) : Bool :=
    !s.portConnected n (stabIn w) || (List.range 5).any fun p => inMask (stabOut w) p && !s.portConnected n p
  let lacks (st p : Nat) : Bool := match r.stabOf st with | some w => !inMask (stabOut w) p | none => true
  let bad (q : Nat × Word) : Bool :=
    let p := q.1 / 256
    let w := q.2
    schedReserved w
      || (schedKind w == 1 && lacks (schedStream w) p)
      || (schedKind w == 2 && (lacks (schedStream w) p || lacks (schedB w) p || schedStream w == schedB w || schedType w == 3))
  dup || vs.any port || (r.stab.any fun q => decide (fld q.2 10 45 ≠ 0)) || r.sched.any bad

/-- The loop step of R387. -/
def Port.loopStep (q : Port) (w : Word) : Port :=
  let tgt := fld w 16 8
  let n := fld w 0 16
  let nextPc := (q.pc + 1) % 256
  if n = 0 then { q with pc := tgt }
  else
    let lvl1 := bit w 61
    let c0 := if lvl1 then q.lc1 else q.lc0
    let c := (if c0 = 0 then n else c0) - 1
    let q1 := if lvl1 then { q with lc1 := c } else { q with lc0 := c }
    { q1 with pc := if 0 < c then tgt else nextPc }

/-- Passing LOOP entries, and stopping at STOP. -/
def Router.passLoops (r : Router) (p : Nat) : Nat → Port → Port
  | 0, q => q
  | k + 1, q =>
    if q.pst ≠ 1 then q
    else
      let w := r.entry p q.pc
      match schedKind w with
      | 0 => { q with pst := 3 }
      | 3 => r.passLoops p k (q.loopStep w)
      | _ => q

/-- ROUTER_START (R395): every port goes to its first FWD or RED entry, and one that meets a STOP first is stopped (R387); when EN has been cleared meanwhile no port runs an entry (log entry 14). -/
def State.routerStart (s : State) (n : Nat) : State :=
  let r := s.router n
  if r.fsm.st ≠ .starting then s
  else if s.routeRefused n then s.setRouter n { r with fsm := r.fsm.startRefused }
  else
    let port (p : Nat) : Port :=
      let q : Port := { flits := (r.out p).flits, pst := 1, since := s.tb }
      if r.fsm.en then r.passLoops p 1024 q else { q with pst := 3 }
    s.setRouter n { r with fsm := r.fsm.startOk, failed := [], ports := (List.range 5).map fun p => (p, port p) }

/-- A write of EN (R395): in STOPPING each port still finishes the entry at which it stands. -/
def State.routerEnable (s : State) (n : Nat) (v : Bool) : State :=
  let r := s.router n
  s.setRouter n { r with fsm := r.fsm.write v }

/-- ROUTER_STOP_COMPLETE (R395). -/
def State.routerStop (s : State) (n : Nat) : State :=
  let r := s.router n
  if r.fsm.st = .stopping ∧ r.ports.all (fun q => q.2.pst = 3 ∨ q.2.pst = 0) then
    s.setRouter n { r with fsm := r.fsm.stopDone, ports := r.ports.map fun q => (q.1, { q.2 with pst := 0 }) }
  else s

/-- A write of a stream-table or schedule entry: refused unless OFF (R395). -/
def State.routeWrite (s : State) (n off : Nat) (v : Word) : State :=
  let r := s.router n
  if r.fsm.st ≠ .off then s.setRouter n { r with werr := true }
  else if 0x400 ≤ off ∧ off < 0x800 then s.setRouter n { r with stab := cset 0 r.stab ((off - 0x400) / 8) v }
  else if 0x800 ≤ off ∧ off < 0x3000 then s.setRouter n { r with sched := cset 0 r.sched ((off - 0x800) / 8) v }
  else s

/-! ## Failed streams (R393, R398) -/

/-- A stream fails at a node: nothing more of it leaves, and the MC learns of it. -/
def State.failStream (s : State) (n stream : Nat) : State :=
  let r := s.router n
  if r.failed.contains stream then s
  else
    let s1 := s.setRouter n { r with failed := r.failed ++ [stream] }
    { s1 with mc := { s1.mc with fails := s1.mc.fails ++ [{ node := n, stream := stream }] } }

/-- Every stream whose entry names an input fails at that point (R398). -/
def Router.streamsAt (r : Router) (p : Nat) : List Nat :=
  (r.stab.filter fun q => stabV q.2 && stabIn q.2 == p).map fun q => stabStream q.2

/-- A flit with an uncorrectable sideband, or a misrouted one: discarded, and the streams of the input fail. -/
def State.failInput (s : State) (n p : Nat) : State :=
  let fs := (s.router n).streamsAt p
  (fs.foldl (fun s st => s.failStream n st) s).routerRecord n 0x07 2 p fs.length

/-! ## Buffers and arrival (R380, R385, R386, R508) -/

/-- Places that buffered flits take: a split pair takes one. -/
def bufUsed (b : List BufFlit) : Nat := (b.countP fun x => x.pair.isNone) + ((b.filterMap BufFlit.pair).eraseDups).length

/-- Room for one more flit on the way into input port p of node n (R380); out of the mesh there is always room, but a port that is not ON takes nothing new (R479). -/
def State.credit (s : State) (n p : Nat) : Bool :=
  if p = 5 then decide (n < 3552) || (s.port (n - 3552)).fsm.st == .on else decide ((s.wire n p).length + bufUsed ((s.router n).buf p) < 32)

/-- The A and B of a RED entry whose OUT is a stream, in a router (R508). -/
def Router.redOf (r : Router) (out : Nat) : Option (Nat × Nat) :=
  (r.sched.find? fun q => schedKind q.2 == 2 && schedOut q.2 == out).map fun q => (schedStream q.2, schedB q.2)

/-- The streams that an arriving flit joins the buffer on: its own, or the two of a split. -/
def Router.joins (r : Router) (w : Word) (stream : Nat) : List Nat :=
  if stabOut w = 0 ∧ 0 < stream then
    match r.redOf (stream - 1) with
    | some (a, b) => [a + 1, b + 1]
    | none => [stream]
  else [stream]

/-- The router at a node counts corrections (R381, log entry 21). -/
def State.countFixed (s : State) (n k : Nat) : State :=
  if k = 0 then s
  else
    let q := if n < 3456 then physOf n / 72 else 48
    { s with errs := mupd {} s.errs q fun e => { e with cnt := mupd 0 e.cnt (cntKey (65536 + nodePunit n) 0x06) fun v => min (2 ^ 32 - 1) (v + k) } }

/-- FLIT_ARRIVAL: the oldest flit on the wire reaches the router (R381, R385, R397, R398); it waits while the 32 places of the input buffer are taken, which only an input fed from out of the mesh can meet (R380). -/
def State.flitArrival (s : State) (n p : Nat) (x : FlitEcc) : State :=
  match s.wire n p with
  | [] => s
  | f :: rest =>
    if 32 ≤ bufUsed ((s.router n).buf p) then s else
    let s0 := s.setWire n p rest
    let s1 := s0.countFixed n x.corrections
    if x.sideband then s1.failInput n p
    else
      let r := s1.router n
      match r.stabOf f.stream with
      | none => s1.failInput n p
      | some w =>
        if stabIn w ≠ p then s1.failInput n p
        else
          let f1 := { f with psn := f.psn ||| x.words }
          let s2 := if x.words ≠ 0 then s1.routerRecord n 0x06 1 p f.stream else s1
          let r := s2.router n
          let ss := r.joins w f.stream
          let tag : Option Nat := if ss.length = 2 then some r.pairs else none
          let r1 := { r with pairs := if tag.isSome then r.pairs + 1 else r.pairs }
          s2.setRouter n (r1.setBuf p (r1.buf p ++ ss.map fun st => { f := { f1 with stream := st }, pair := tag }))

/-! ## Output ports (R386 to R388, R391) -/

/-- The oldest buffered flit of a stream that port p has still to take. -/
def Router.oldest (r : Router) (stream p : Nat) : Option Flit :=
  match r.stabOf stream with
  | none => none
  | some w =>
    if r.failed.contains stream then none
    else ((r.buf (stabIn w)).find? fun b => b.f.stream == stream && !b.took.getLsbD p).map BufFlit.f

/-- Port p has taken the oldest flit of a stream; flits that every port of their OUTMASK has taken leave, a pair together (R386, R508). -/
def markTaken (stream p : Nat) : List BufFlit → List BufFlit
  | [] => []
  | b :: r => if b.f.stream = stream ∧ b.took.getLsbD p = false then { b with took := b.took ||| BitVec.ofNat 5 (2 ^ p) } :: r else b :: markTaken stream p r

def Router.taken (r : Router) (stream p : Nat) : Router :=
  match r.stabOf stream with
  | none => r
  | some w =>
    let i := stabIn w
    let b := markTaken stream p (r.buf i)
    let done (x : BufFlit) : Bool :=
      match r.stabOf x.f.stream with
      | some w => x.took.toNat == stabOut w && x.took != 0
      | none => false
    r.setBuf i (b.filter fun x => !(done x && (b.all fun y => y.pair != x.pair || x.pair.isNone || done y)))

/-- Port p at its next FWD or RED entry. -/
def Router.ready (r : Router) (p : Nat) : Port := r.passLoops p 1024 (r.out p)

/-- One flit of the entry has been sent. -/
def Router.advance (r : Router) (tb p : Nat) (w : Word) : Router :=
  let q := r.out p
  let q1 := { q with flits := q.flits + 1, sent := q.sent + 1, since := tb, told := false }
  if q1.sent < schedCount w then r.setOut p q1
  else
    let q2 := { q1 with sent := 0, pc := (q1.pc + 1) % 256 }
    if r.fsm.st = .stopping then r.setOut p { q2 with pst := 3 }
    else let r1 := r.setOut p q2; r1.setOut p (r1.ready p)

/-- The outgoing flit of port p goes on its way; a credit return that leaves by a link travels as a CCREDIT unit (R473). -/
def State.sendFlit (s : State) (n p : Nat) (f : Flit) : State :=
  match meshNext n p with
  | none => s
  | some (m, i) =>
    if 3552 ≤ m ∧ i = 5 ∧ f.kind = 5 then
      let w0 := wordAt f.data 0
      s.urgent (fun k => k == m - 3552) 4 (BitVec.ofNat 96 (f.stream % 1024 + w0.toNat * 2 ^ 32))
    else s.putFlits m i [f]

/-- The port may run an entry now: its router is ON or STOPPING and the chip has not failed (R629). -/
def State.portRuns (s : State) (n p : Nat) : Bool :=
  let r := s.router n
  !s.dead && (r.fsm.st == .on || r.fsm.st == .stopping) && (r.ready p).pst == 1

/-- A credit is held for what port p of node n sends. -/
def State.portCredit (s : State) (n p : Nat) : Bool :=
  match meshNext n p with
  | some (m, i) => s.credit m i
  | none => false

/-- SCHED_FWD (R387, R388). -/
def State.schedFwd (s : State) (n p : Nat) : State :=
  if s.portRuns n p then
    let r0 := s.router n
    let r := r0.setOut p (r0.ready p)
    let w := r.entry p (r.out p).pc
    if schedKind w ≠ 1 ∨ !s.portCredit n p then s.setRouter n r
    else match r.oldest (schedStream w) p with
      | none => s.setRouter n r
      | some f => (s.setRouter n ((r.taken (schedStream w) p).advance s.tb p w)).sendFlit n p f
  else s

/-! ## In-network reduction (R391, R392, Table 12-5) -/

/-- One lane: the sum and its overflow condition. -/
def redLane (ty a b : Nat) : Nat × Bool :=
  match ty with
  | 0 =>
    let r := (b32.add .ties a b).1
    let nan := b32.isNan a || b32.isNan b
    let inf (x : Nat) : Bool := decide (b32.abs x = b32.infBits false)
    (r, (inf r && !inf a && !inf b && !nan) || (b32.isNan r && !nan))
  | 1 => let x := satTo 32 (sextNat a 32 + sextNat b 32); (natOfInt 32 x.1, x.2)
  | _ => let x := satTo 64 (sextNat a 64 + sextNat b 64); (natOfInt 64 x.1, x.2)

/-- The lanes of two flits' data. -/
def redData (ty : Nat) (x y : List Byte) : List Byte × Bool :=
  let w := if ty = 2 then 8 else 4
  let lanes := (List.range (64 / w)).map fun i => redLane ty (leNat ((x.drop (w * i)).take w)) (leNat ((y.drop (w * i)).take w))
  (lanes.flatMap fun l => leBytes w l.1, lanes.any Prod.snd)

/-- `reduce_flit` of R391: the flit, and the port's sticky bit after it. -/
def reduceFlit (ty out : Nat) (sticky : Bool) (x y : Flit) : Flit × Bool :=
  let d := if x.hd then (x.data, false) else redData ty x.data y.data
  let ov := sticky || x.ovf || y.ovf || d.2
  ({ stream := out, kind := x.kind, hd := x.hd, tr := x.tr, ovf := ov, psn := x.psn ||| y.psn, data := d.1 }, ov && !x.tr)

/-- SCHED_RED (R391, R393). -/
def State.schedRed (s : State) (n p : Nat) : State :=
  if s.portRuns n p then
    let r0 := s.router n
    let r := r0.setOut p (r0.ready p)
    let q := r.out p
    let w := r.entry p q.pc
    if schedKind w ≠ 2 ∨ !s.portCredit n p then s.setRouter n r
    else match r.oldest (schedStream w) p, r.oldest (schedB w) p with
      | some x, some y =>
        if r.failed.contains (schedOut w) then s.setRouter n r
        else if x.hd ≠ y.hd ∨ x.tr ≠ y.tr then
          ((s.setRouter n (r.setOut p { q with pst := 3 })).failStream n (schedOut w)).routerRecord n 0x08 2 0 (nodePunit n)
        else
          let z := reduceFlit (schedType w) (schedOut w) q.sticky x y
          let r1 := ((r.setOut p { q with sticky := z.2 }).taken (schedStream w) p).taken (schedB w) p
          (s.setRouter n (r1.advance s.tb p w)).sendFlit n p z.1
      | _, _ => s.setRouter n r
  else s

/-- Port p waits at its entry: a flit it names is absent, or no credit is held (R388, PST 2). -/
def State.portWaits (s : State) (n p : Nat) : Bool :=
  let r := s.router n
  let q := r.ready p
  let w := r.entry p q.pc
  q.pst == 1 && (!s.portCredit n p || (r.oldest (schedStream w) p).isNone || (schedKind w == 2 && (r.oldest (schedB w) p).isNone))

/-- ROUTER_STALL_WATCHDOG (R399). -/
def State.stallWatchdog (s : State) (n p : Nat) : State :=
  let r := s.router n
  let q := r.ready p
  if (r.fsm.st = .on ∨ r.fsm.st = .stopping) ∧ r.wdog ≠ 0 ∧ q.told = false ∧ s.portWaits n p ∧ q.since + 1024 * r.wdog.toNat ≤ s.tb then
    (s.setRouter n { r.setOut p { q with told := true } with stall := r.stall ||| BitVec.ofNat 5 (2 ^ p) }).routerRecord n 0x09 0 p q.pc
  else s

/-! ## Items that leave the mesh -/

/-- The oldest complete item among flits, and the flits that remain. -/
def oldestItem (fs : List Flit) : Option (List Flit × List Flit) :=
  match fs.find? Flit.tr with
  | none => none
  | some t =>
    let before := fs.takeWhile fun f => !(f.stream == t.stream && f.tr)
    let after := fs.drop (before.length + 1)
    let mine := before.filter fun f => f.stream == t.stream
    some (mine ++ [t], (before.filter fun f => f.stream != t.stream) ++ after)

/-- The oldest complete item that has left the mesh at node n. -/
def State.egress (s : State) (n : Nat) : Option (List Flit × State) :=
  (oldestItem (s.wire n 5)).map fun p => (p.1, s.setWire n 5 p.2)

/-! ## Tracing a stream (R632) -/

/-- Where the flits of a stream go from a node: the next node with the name they have there. -/
def State.downstream (s : State) (n stream : Nat) : List (Nat × Nat × Nat) :=
  let r := s.router n
  let red (p : Nat) : Option Nat :=
    (r.sched.find? fun q => q.1 / 256 == p && schedKind q.2 == 2 && (schedStream q.2 == stream || schedB q.2 == stream)).map fun q => schedOut q.2
  match r.stabOf stream with
  | none => (r.sched.filter fun q => schedKind q.2 == 2 && schedOut q.2 == stream).filterMap fun q => (meshNext n (q.1 / 256)).map fun m => (m.1, m.2, stream)
  | some w =>
    ((List.range 5).filter (inMask (stabOut w))).filterMap fun p => (meshNext n p).map fun m => (m.1, m.2, (red p).getD stream)

/-- The sinks of a stream: nodes where it leaves the mesh, with its name there. -/
def State.sinks (s : State) : Nat → List (Nat × Nat) → List (Nat × Nat)
  | 0, _ => []
  | _, [] => []
  | k + 1, (n, st) :: rest =>
    let ds := s.downstream n st
    let here := (ds.filter fun d => d.2.1 == 5).map fun d => (d.1, d.2.2)
    let next := (ds.filter fun d => d.2.1 != 5).map fun d => (d.1, d.2.2)
    here ++ State.sinks s k (rest ++ next)

/-- Where the flits of a stream come from: the previous nodes with the name they have there. -/
def State.upstream (s : State) (n stream : Nat) : List (Option (Nat × Nat)) :=
  let r := s.router n
  match r.stabOf stream with
  | none => match r.redOf stream with | some (a, b) => [some (n, a), some (n, b)] | none => []
  | some w =>
    match meshPrev n (stabIn w) with
    | none => [none]
    | some (m, q) =>
      let pr := s.router m
      match pr.sched.find? (fun x => x.1 / 256 == q && schedKind x.2 == 2 && schedOut x.2 == stream) with
      | some x => [some (m, schedStream x.2), some (m, schedB x.2)]
      | none => [some (m, stream)]

/-- The sources of a stream: nodes where it enters the mesh, with its name there. -/
def State.sources (s : State) : Nat → List (Nat × Nat) → List (Nat × Nat)
  | 0, _ => []
  | _, [] => []
  | k + 1, (n, st) :: rest =>
    let us := s.upstream n st
    let here := if us.contains none then [(n, st)] else []
    here ++ State.sources s k (rest ++ us.filterMap id)

/-! ## Routes of the service network (R401, R402) -/

/-- The position of a fixed attachment: (pr, pc). -/
def nodePos (n : Nat) : Nat × Nat := (n / 72, n % 72)

/-- The column of a list that is nearest to a column, the first among equals. -/
def nearestCol (pc : Nat) : List Nat → Nat
  | [] => 0
  | [c] => c
  | c :: r => let d := nearestCol pc r; if (max c pc - min c pc) ≤ (max d pc - min d pc) then c else d

/-- The half of a column. -/
def colEast (pc : Nat) : Bool := decide (36 ≤ pc)

/-- Where a unit of this chip is attached, for traffic with a column: cores and CCs at their own routers, a memory site and the spine at their attachment nearest that column, the spine's in that column's half. -/
def State.svcAttach (s : State) (u pc : Nat) : Nat × Nat :=
  let l := unitLocal u
  if l < 3072 then nodePos (nodeOf (s.phys l))
  else if 4096 ≤ l ∧ l < 4144 then let n := l - 4096; (n / 8 * 8, n % 8 * 9 + 8)
  else if 8192 ≤ l ∧ l < 8288 then
    let h := (l - 8192) / 16
    let at' := (List.range 16).map fun j => nodePos (memRouter h j).1
    ((at'.getD 0 (0, 0)).1, nearestCol pc (at'.map Prod.snd))
  else (47, nearestCol pc ((List.range 8).map fun i => if colEast pc then 36 + i else 27 + i))

/-- The attachment of a port for VL1, at the first of its four rows. -/
def portPos (k : Nat) : Nat × Nat := nodePos (linkRouter k 0).1

/-- The column that a unit's traffic starts from or ends at, before an attachment is chosen. -/
def State.svcCol (s : State) (u : Nat) : Option Nat :=
  let l := unitLocal u
  if unitChip u ≠ s.chipId then (s.portTo (unitChip u)).map fun k => (portPos k).2
  else if l < 3072 ∨ (4096 ≤ l ∧ l < 4144) then some (s.svcAttach u 0).2
  else if 8192 ≤ l ∧ l < 8288 then some (nodePos (memRouter ((l - 8192) / 16) (l % 16)).1).2
  else none

/-- The routers of a packet's route: along the source's row to the destination's column, then north or south (R402). -/
def State.svcRoute (s : State) (src dst : Nat) : List (Nat × Nat) :=
  let toward (u other : Nat) : Nat × Nat :=
    if unitChip u ≠ s.chipId then ((s.portTo (unitChip u)).map portPos).getD (47, 27)
    else s.svcAttach u ((s.svcCol other).getD 27)
  let a := toward src dst
  let b := toward dst src
  let along := if a.2 ≤ b.2 then (List.range (b.2 + 1 - a.2)).map fun i => (a.1, a.2 + i) else (List.range (a.2 + 1 - b.2)).map fun i => (a.1, a.2 - i)
  let down := if a.1 ≤ b.1 then (List.range (b.1 - a.1)).map fun i => (a.1 + 1 + i, b.2) else (List.range (a.1 - b.1)).map fun i => (a.1 - 1 - i, b.2)
  along ++ down

/-- A route crosses the Col, between pc 35 and pc 36. -/
def crossesCol (r : List (Nat × Nat)) : Bool := (r.any fun x => colEast x.2) && r.any fun x => !colEast x.2

/-- The Col holds new traffic into a half that drains (R409): what the spine sends into the half does not cross it (R402). -/
def State.colHolds (s : State) (p : SvcPkt) : Bool :=
  match unitEast p.dst with
  | some east =>
    (match (s.half east).drain with
     | some t => decide (t ≤ p.sentAt) && crossesCol (s.svcRoute p.src p.dst)
     | none => false)
  | none => false

end Sys2Proof.Machine
end

