-- ==== Sys2Proof/Machine/Arrive.lean ====
section
/-! DEFINITION. What reaches a core: items from its router and packets of the service network (spec 12 R383; 11 R353 to R373; 10 R326 to R335; 03 R113 to R115; 16 R513). -/

namespace Sys2Proof.Machine

/-! ## Items (R383) -/

/-- A message reaches its ring, with the request pulse to a DMA consumer (R191, R363). -/
def messageIn (c : Core) (m : Msg) : Core :=
  let c1 := messageArrives c m
  if (c1.chiAt m.chi).rcv = (c.chiAt m.chi).rcv then c1 else c1.ringPulse (c.chiAt m.chi).ring

/-- The ring bound to a stream with PKIND = 2, in ON or stopping (R183, R190). -/
def boundStream (c : Core) (st : Nat) : Option Nat :=
  (List.range 16).find? fun n => let r := c.ringAt n; (r.fsm.st == .on || r.fsm.st == .stopping) && r.pkind == 2 && r.stream == st

/-- An item whose stream the core does not bind (R383). -/
def unbound (e : Env) (st : Nat) : Emit := e.errRec 0x0A 2 0 st 0

/-- A write into the core: an append to its ring, answered on the partner stream; none while the ring has no room. A ring that stops discards it, and the stream fails at this core (R183, R190, R313, R383, R513, Table 12-3). -/
def writeIn (e : Env) (c : Core) (st : Nat) (a : Word) (data : List Byte) (pz : List Nat) (ovf : Bool) : Option (Core × List Emit) :=
  match boundStream c st with
  | none => some (c, [unbound e st])
  | some n =>
    if (c.ringAt n).fsm.st = .stopping then some (c, [.streamFail st])
    else (ringAppend c n data (packMarks a.toNat data.length pz) ovf).map fun c1 => (c1.ringPulse n, [.inject (st + 1) (.writeResp a 0)])

/-- One item; none when it must wait. -/
def itemIn (e : Env) (c : Core) (st : Nat) (ovf : Bool) : Item → Option (Core × List Emit)
  | .message m => some (messageIn c m, [])
  | .write a d pz => writeIn e c st a d pz ovf
  | .writeResp _ status =>
    if (streamChannels e c st).isEmpty then some (c, [unbound e st]) else some (streamWriteResp e c st status)
  | .readData _ _ status d pz =>
    if (streamChannels e c st).isEmpty then some (c, [unbound e st]) else some (streamReadData e c st status d pz)
  | .readReq .. => some (c, [unbound e st])
  | .credit ep cho u => some (creditArrives c cho ep u, [])
  | .closeReq ep chi => some (closeReqArrives e c chi ep none)

/-- The oldest complete item at a core's ingress, when it meets a condition, is delivered. -/
def State.ingress (s : State) (l : Nat) (want : Item → Bool) : State :=
  if (s.coreAt l).held then s
  else match s.egress (nodeOf (s.phys l)) with
    | none => s
    | some (fs, s1) =>
      let x := itemOf fs
      let st := (fs.head?.map Flit.stream).getD 0
      let ovf := fs.any fun f => f.tr && f.ovf
      if want x then
        match itemIn (s.env l) (s.coreAt l) st ovf x with
        | some r => (s1.setCore l r.1).applyEmits l r.2
        | none => s
      else s

/-- INGRESS_ITEM (R383). -/
def execIngressItem (c : CoreId) (s : State) : Out := .next (s.ingress c.val fun _ => true)

/-- A write item. -/
def Item.isWrite : Item → Bool
  | .write .. => true
  | _ => false

/-- RING_APPEND: a write item at the core's ingress is appended to its ring (R190, R191). -/
def execRingAppend (c : CoreId) (s : State) : Out := .next (s.ingress c.val Item.isWrite)

/-! ## Packets -/

/-- Taking core l's oldest packet of a kind and carrying out its own part. -/
def State.packet (s : State) (l : Nat) (want : InMsg → Bool) (f : Env → Core → InMsg → Core × List Emit) : State :=
  if (s.coreAt l).held then s
  else match s.takeInbox (fun m => m.unit == unitOf s.chipId l && want m) with
    | none => s
    | some (m, s1) => s1.onCore l fun e c => f e c m

def InMsg.isMessage (m : InMsg) : Bool := match m.body with | .message _ => true | _ => false
def InMsg.isAnswer (m : InMsg) : Bool := match m.body with | .ack | .err _ => true | _ => false
def InMsg.isData (m : InMsg) : Bool := match m.body with | .readResp .. | .err _ => true | _ => false

/-- A message item is at the head of the core's ingress. -/
def State.messageAtIngress (s : State) (l : Nat) : Bool :=
  match s.egress (nodeOf (s.phys l)) with
  | some (fs, _) => (itemOf fs).kind == 0
  | none => false

/-- MESSAGE_ARRIVAL: of a static channel at the ingress, else of a dynamic one (R351, R363). -/
def execMessageArrival (c : CoreId) (s : State) : Out :=
  .next (if s.messageAtIngress c.val then s.ingress c.val fun x => x.kind == 0
    else s.packet c.val InMsg.isMessage fun _ k m => match m.body with | .message x => (messageIn k x, []) | _ => (k, []))

/-- The transaction is an unanswered read of a DMA burst. -/
def Core.dmaReads (c : Core) (xid : Nat) : Bool :=
  [0, 1].any fun ch => match (c.dma ch).run with
    | some r => r.bursts.any fun b => b.reads.any fun p => p.xid == xid && !p.done && p.bad == 0
    | none => false

/-- The transaction is the far load of a thread. -/
def Thread.awaits (th : Thread) (xid : Nat) : Bool :=
  match th.waitOp with
  | some (.farData _ _ _ _ x _) => x == xid
  | _ => false
def Core.farReads (c : Core) (xid : Nat) : Bool := c.thr.any fun p => p.2.awaits xid

/-- WRITE_RESPONSE_ARRIVAL: on the service network, or on a stream (R67, R115, R302). -/
def execWriteResponseArrival (c : CoreId) (s : State) : Out :=
  let k := s.coreAt c.val
  match s.egress (nodeOf (s.phys c.val)) with
  | some (fs, _) =>
    if (itemOf fs).kind = 2 then .next (s.ingress c.val fun x => x.kind == 2)
    else .next (s.packet c.val (fun m => m.isAnswer && !k.dmaReads m.xid && !k.farReads m.xid) fun e k m =>
      writeAnswered e k m.xid (match m.body with | .err kind => some kind | _ => none))
  | none =>
    .next (s.packet c.val (fun m => m.isAnswer && !k.dmaReads m.xid && !k.farReads m.xid) fun e k m =>
      writeAnswered e k m.xid (match m.body with | .err kind => some kind | _ => none))

/-- FAR_LOAD_RESPONSE (R114): it waits while the thread is not in WAIT (R45). -/
def execFarLoadResponse (c : CoreId) (t : Thr) (s : State) : Out :=
  let th := (s.coreAt c.val).thread t.val
  .next (if th.st = .wait then
    s.packet c.val (fun m => m.isData && th.awaits m.xid) fun e k m => farLoadAnswer e k t.val m.xid m.body
    else s)

/-- READ_DATA_ARRIVAL: on the service network, or on a stream (R302). -/
def execReadDataArrival (c : CoreId) (s : State) : Out :=
  let k := s.coreAt c.val
  let svc := s.packet c.val (fun m => m.isData && k.dmaReads m.xid) fun e k m =>
    match m.body with
    | .readResp d _ pz => readAnswered e k m.xid 0 d pz
    | .err kind => readAnswered e k m.xid (kindCause kind) [] []
    | _ => (k, [])
  match s.egress (nodeOf (s.phys c.val)) with
  | some (fs, _) => .next (if (itemOf fs).kind = 4 then s.ingress c.val fun x => x.kind == 4 else svc)
  | none => .next svc

/-- COUNTER_INCREMENT_ARRIVAL: the increment takes effect and is answered (R326, R329). -/
def execCounterIncrementArrival (c : CoreId) (s : State) : Out :=
  if (s.coreAt c.val).held then .next s
  else match s.takeInbox (fun m => m.unit == unitOf s.chipId c.val && (match m.body with | .inc .. => true | _ => false)) with
    | none => .next s
    | some (m, s1) =>
      match m.body with
      | .inc a n =>
        match saCounter a with
        | some i => .next ((s1.setCore c.val ((s1.coreAt c.val).scAdd i n)).answer m .ack)
        | none => .next (s1.answer m (.err 1))
      | _ => .next s1

/-- COUNTER_MARK_BROKEN: the bit and the record at the target's CC (R334, Table 10-2). -/
def execCounterMarkBroken (c : CoreId) (s : State) : Out :=
  .next (s.packet c.val (fun m => match m.body with | .markBroken _ => true | _ => false) fun e k m =>
    match m.body with
    | .markBroken a =>
      match saCounter a with
      | some n => ({ k with scBrk := k.scBrk ||| BitVec.ofNat 48 (2 ^ n) }, [e.errRec 0x0C 2 n (saChip m.back * 4096 + saLcid m.back) 0])
      | none => (k, [])
    | _ => (k, []))

/-! ## Channels -/

/-- OPEN_REQUEST_ARRIVAL (R355, R356). -/
def execOpenRequestArrival (c : CoreId) (s : State) : Out :=
  .next (s.packet c.val (fun m => match m.body with | .openReq .. => true | _ => false) fun e k m =>
    match m.body with
    | .openReq chi chip lcid cho dyn => openArrives e k (chi % 64) chip lcid cho dyn
    | _ => (k, []))

/-- GRANT_ARRIVAL (R353). -/
def execGrantArrival (c : CoreId) (s : State) : Out :=
  .next (s.packet c.val (fun m => match m.body with | .grant .. => true | _ => false) fun e k m =>
    match m.body with
    | .grant cho ep sk slot u => (grantArrives e k cho ep sk slot u, [])
    | _ => (k, []))

/-- REFUSAL_ARRIVAL: a refusal gives CCAUSE 3 and an error response 4 (R356). -/
def execRefusalArrival (c : CoreId) (s : State) : Out :=
  .next (s.packet c.val (fun m => match m.body with | .refusal .. => true | _ => false) fun _ k m =>
    match m.body with
    | .refusal cho kind => (refusalArrives k cho (if kind = 0 then 3 else 4), [])
    | _ => (k, []))

/-- CHANNEL_CREDIT_ARRIVAL: of a static channel at the ingress, else of a dynamic one (R367). -/
def execChannelCreditArrival (c : CoreId) (s : State) : Out :=
  let svc := s.packet c.val (fun m => match m.body with | .credit .. => true | _ => false) fun _ k m =>
    match m.body with
    | .credit cho ep u => (creditArrives k cho ep u, [])
    | _ => (k, [])
  match s.egress (nodeOf (s.phys c.val)) with
  | some (fs, _) => .next (if (itemOf fs).kind = 5 then s.ingress c.val fun x => x.kind == 5 else svc)
  | none => .next svc

/-- CLOSE_REQUEST_ARRIVAL: of a static channel at the ingress, else of a dynamic one (R368). -/
def execCloseRequestArrival (c : CoreId) (s : State) : Out :=
  let svc := s.packet c.val (fun m => match m.body with | .closeReq .. => true | _ => false) fun e k m =>
    match m.body with
    | .closeReq chi ep chip lcid cho => closeReqArrives e k (chi % 64) ep (some ⟨chip, lcid, cho⟩)
    | _ => (k, [])
  match s.egress (nodeOf (s.phys c.val)) with
  | some (fs, _) => .next (if (itemOf fs).kind = 6 then s.ingress c.val fun x => x.kind == 6 else svc)
  | none => .next svc

/-- CLOSE_NOTICE_ARRIVAL (R369). -/
def execCloseNoticeArrival (c : CoreId) (s : State) : Out :=
  .next (s.packet c.val (fun m => match m.body with | .closeNotice .. => true | _ => false) fun e k m =>
    match m.body with
    | .closeNotice cho ep answer => closeNoticeArrives e k cho ep answer
    | _ => (k, []))

/-- ABANDON_NOTICE_ARRIVAL: closes an endpoint that is OPENING, or OPEN with the sender that it names, without a notice (R373; log entry 54). -/
def execAbandonNoticeArrival (c : CoreId) (s : State) : Out :=
  .next (s.packet c.val (fun m => match m.body with | .abandon .. => true | _ => false) fun e k m =>
    match m.body with
    | .abandon chi chip lcid cho =>
      let x := k.chiAt (chi % 64)
      if x.fsm.st = .starting ∨ x.peer = some ⟨chip, lcid, cho⟩ then chiClose e k (chi % 64) false else (k, [])
    | _ => (k, []))

/-! ## Routers -/

/-- FLIT_ARRIVAL (R385). -/
def execFlitArrival (n : Node) (p : Fin 5) (x : FlitEcc) (s : State) : Out := .next (s.flitArrival n.val p.val x)
/-- SCHED_FWD (R387). -/
def execSchedFwd (n : Node) (p : Fin 5) (s : State) : Out := .next (s.schedFwd n.val p.val)
/-- SCHED_RED (R391). -/
def execSchedRed (n : Node) (p : Fin 5) (s : State) : Out := .next (s.schedRed n.val p.val)
/-- ROUTER_ENABLE (R395). -/
def execRouterEnable (n : Node) (s : State) : Out := .next (s.routerEnable n.val true)
/-- ROUTER_DISABLE (R395). -/
def execRouterDisable (n : Node) (s : State) : Out := .next (s.routerEnable n.val false)
/-- ROUTER_START (R395). -/
def execRouterStart (n : Node) (s : State) : Out := .next (s.routerStart n.val)
/-- ROUTER_STOP_COMPLETE (R395). -/
def execRouterStopComplete (n : Node) (s : State) : Out := .next (s.routerStop n.val)
/-- ROUTE_ENTRY_WRITE (R395). -/
def execRouteEntryWrite (n : Node) (off : BitVec 14) (v : Word) (s : State) : Out := .next (s.routeWrite n.val off.toNat v)
/-- ROUTER_STALL_WATCHDOG (R399). -/
def execRouterStallWatchdog (n : Node) (p : Fin 5) (s : State) : Out := .next (s.stallWatchdog n.val p.val)

end Sys2Proof.Machine
end

