-- ==== Sys2Proof/Machine/Hbm.lean ====
section
/-! DEFINITION. The HBM subsystem: accesses and their codes, the accept order, patrol scrub, refresh, repair, the region table's start and stop, and the stacks' power (spec 14). -/

namespace Sys2Proof.Machine

/-! ## Words, codes and markers (R444, R445) -/

/-- The 32-byte words that [key, key + n) touches. -/
def hbmWords (key n : Nat) : List Nat := if n = 0 then [] else (List.range ((key + n - 1) / 32 - key / 32 + 1)).map fun i => key / 32 + i

def Hbm.marked (x : Hbm) (w : Nat) : Bool := mget false x.mark w
def Hbm.setMark (x : Hbm) (w : Nat) (b : Bool) : Hbm := { x with mark := cset false x.mark w b }

/-- What the code finds in a word: corrected, or uncorrectable and rewritten in place with the marker (R444). -/
def State.checkWord (s : State) (h w : Nat) (x : Ecc) : State :=
  let key := 32 * w
  match x.ue.find? (fun u => u.1 == w) with
  | some u =>
    let k := s.stk h
    (s.setStk h (({ k with ue := k.ue + 1, mem := wrBytes k.mem key ((u.2 ++ List.replicate 32 0).take 32) }).setMark w true)).siteRecord h (keyPc key) 0x0E 1 (keyPc key) (keyBlock key)
  | none =>
    if x.ce.contains w then
      let k := s.stk h
      (s.setStk h { k with ce := k.ce + 1 }).siteRecord h (keyPc key) 0x0E 0 (keyPc key) (keyBlock key)
    else s

/-- Reading n bytes of a stack: the state after the codes have acted, the bytes, and the marked 8-byte words from the first. -/
def State.hbmRead (s : State) (h key n : Nat) (x : Ecc) : State × List Byte × List Nat :=
  let s1 := (hbmWords key n).foldl (fun s w => s.checkWord h w x) s
  let k := s1.stk h
  (s1, rdBytes k.mem key n, (List.range ((key % 8 + n + 7) / 8)).filter fun j => k.marked ((key / 8 + j) / 4))

/-- One word of a write: a partly covered word is read first, and an uncorrectable or marked one keeps the marker (R445). -/
def State.writeWord (s : State) (h key n : Nat) (pz : List Nat) (x : Ecc) (w : Nat) : State :=
  let full := decide (key ≤ 32 * w) && decide (32 * w + 32 ≤ key + n)
  let given := (List.range 4).any fun i => decide (key / 8 ≤ 4 * w + i) && pz.contains (4 * w + i - key / 8)
  if full then s.setStk h ((s.stk h).setMark w given)
  else
    let was := (s.stk h).marked w
    let bad := x.ue.any fun u => u.1 == w
    let s1 := if bad then s.checkWord h w x else if was then s.siteRecord h (keyPc (32 * w)) 0x0E 1 (keyPc (32 * w)) (keyBlock (32 * w)) else s.checkWord h w x
    s1.setStk h ((s1.stk h).setMark w (given || was || bad))

/-- Writing bytes of a stack; `pz` names marked 8-byte words from the first. -/
def State.hbmWrite (s : State) (h key : Nat) (d : List Byte) (pz : List Nat) (x : Ecc) : State :=
  let s1 := (hbmWords key d.length).foldl (fun s w => s.writeWord h key d.length pz x w) s
  let k := s1.stk h
  s1.setStk h { k with mem := wrBytes k.mem key d }

/-- A range of kind-0 offsets as runs within blocks: offset in the range, site, byte key and length; none when a byte translates nowhere. -/
def State.hbmRuns (s : State) (pt o n : Nat) : Nat → Nat → Option (List (Nat × Nat × Nat × Nat))
  | 0, _ => some []
  | k + 1, i =>
    if n ≤ i then some []
    else
      let len := min (n - i) (256 - (o + i) % 256)
      match s.translate pt (o + i), State.hbmRuns s pt o n k (i + len) with
      | some (h, key), some r => some ((i, h, key, len) :: r)
      | _, _ => none

def State.runsOf (s : State) (pt o n : Nat) : Option (List (Nat × Nat × Nat × Nat)) := s.hbmRuns pt o n (n / 256 + 2) 0

/-- Reading a range run by run. -/
def State.readRuns (s : State) (o : Nat) (x : Ecc) : List (Nat × Nat × Nat × Nat) → State × List Byte × List Nat
  | [] => (s, [], [])
  | (i, h, key, len) :: r =>
    let a := s.hbmRead h key len x
    let b := State.readRuns a.1 o x r
    (b.1, a.2.1 ++ b.2.1, (a.2.2.map fun j => (o + i) / 8 + j - o / 8) ++ b.2.2)

/-- Writing a range run by run. -/
def State.writeRuns (s : State) (o : Nat) (d : List Byte) (pz : List Nat) (x : Ecc) : List (Nat × Nat × Nat × Nat) → State
  | [] => s
  | (i, h, key, len) :: r =>
    let mine := (pz.filter fun j => decide ((o + i) / 8 ≤ o / 8 + j)).map fun j => o / 8 + j - (o + i) / 8
    State.writeRuns (s.hbmWrite h key ((d.drop i).take len) mine x) o d pz x r

/-! ## Accepting requests (R436 to R438, R442) -/

/-- A refresh window holds every request (R448). -/
def State.inWindow (s : State) (h : Nat) : Bool := decide (s.tb < (s.stk h).winEnd)

/-- Why a memory port serves nothing of an item: not kind 0 of this chip, a byte outside its own channel, or its stack OFF; 0 when it serves it (R442, R453). -/
def State.portStatus (s : State) (h j : Nat) (a : Word) (n : Nat) : Nat × List (Nat × Nat × Nat × Nat) :=
  let chip := if saChip a = 4095 then s.chipId else saChip a
  if chip ≠ s.chipId ∨ saKind a ≠ 0 then (2, [])
  else match s.runsOf (unitHbm h j) (saOff a) n with
    | none => (2, [])
    | some rs =>
      if rs.any (fun r => r.2.1 != h || keyPc r.2.2.1 / 2 != j) then (2, [])
      else if (s.stk h).fsm.st ≠ .on then (5, [])
      else (0, rs)

/-- Counting an accept slot of a pseudo-channel: the mesh's, or the service network's (R437). -/
def Hbm.slot (x : Hbm) (pc : Nat) (mesh : Bool) : Hbm :=
  { x with slots := mset x.slots pc (if mesh then min 15 (mget 15 x.slots pc + 1) else 0) }

/-- A parity error: the command is retried once, and the error recorded (Table 14-1). -/
def State.parity (s : State) (h pc : Nat) (x : Ecc) : State :=
  if x.par = 0 then s
  else
    let k := s.stk h
    (s.setStk h { k with parity := k.parity + 1 }).siteRecord h pc 0x0F 0 pc (k.parity + 1)

/-- What a memory port does with an item: the address, the length and, for a write, the bytes and their marks. -/
def Item.access : Item → Option (Word × Nat × Option (List Byte × List Nat))
  | .write a d pz => some (a, d.length, some (d, pz))
  | .readReq a n => some (a, n, none)
  | _ => none

/-- The answer of a memory port (Table 12-3). -/
def Item.reply (y : Item) (st : Nat) (data : List Byte) (pz : List Nat) : Item :=
  match y with
  | .readReq a n => .readData a n st data pz
  | .write a _ _ => .writeResp a st
  | _ => y

/-- The oldest mesh item of a memory port takes its next accept slot, of one block; with the last it is answered (R437, R438, Tables 12-3 and 14-4). -/
def State.meshAccept (s : State) (h j : Nat) (x : Ecc) : State :=
  let n := memNode h j
  match s.egress n with
  | none => s
  | some (fs, s0) =>
    let st := (fs.head?.map Flit.stream).getD 0
    let y := itemOf fs
    let ends (s : State) (status : Nat) (data : List Byte) (pz : List Nat) : State :=
      let k := s.stk h
      ((s.setWire n 5 (s0.wire n 5)).setStk h { k with taken := mdel k.taken j }).putFlits n 4 ((y.reply status data pz).flits (st + 1))
    match y.access with
    | none => s0.routerRecord n 0x0A 2 0 st
    | some (a, len, wr) =>
      let p := s.portStatus h j a len
      let acc := mget {} (s.stk h).taken j
      if p.1 ≠ 0 then ends s p.1 [] []
      else match p.2.drop acc.runs with
        | [] => ends s 0 acc.data acc.pz
        | r :: more =>
          let pc := keyPc r.2.2.1
          let s1 := (s.setStk h ((s.stk h).slot pc true)).parity h pc x
          if 2 ≤ x.par then ends s1 7 [] []
          else
            let (s2, acc2) := match wr with
              | some (d, pz) => (s1.writeRuns (saOff a) d pz x [r], { acc with runs := acc.runs + 1 })
              | none => let z := s1.readRuns (saOff a) x [r]; (z.1, { runs := acc.runs + 1, data := acc.data ++ z.2.1, pz := acc.pz ++ z.2.2 })
            if more = [] then ends s2 0 acc2.data acc2.pz
            else let k := s2.stk h; s2.setStk h { k with taken := mset k.taken j acc2 }

/-- A service-network request may take a slot of a pseudo-channel: no mesh item waits, or 15 slots have gone to the mesh (R437). -/
def State.slotFree (s : State) (h pc : Nat) : Bool := (s.egress (memNode h (pc / 2))).isNone || decide (15 ≤ mget 15 (s.stk h).slots pc)

/-- The mesh item that waits addresses one of these words: it goes first (Table 14-4). -/
def State.meshFirst (s : State) (h j key n : Nat) : Bool :=
  match s.egress (memNode h j) with
  | none => false
  | some (fs, _) =>
    match (itemOf fs).access with
    | none => false
    | some (a, len, _) =>
      let p := s.portStatus h j a len
      p.1 == 0 && p.2.any fun r => (hbmWords r.2.2.1 r.2.2.2).any fun w => (hbmWords key n).contains w

/-- Both transactions belong to one transfer of a core's channels. -/
def Core.oneTransfer (c : Core) (x y : Nat) : Bool :=
  [0, 1].any fun ch => match (c.dma ch).run with
    | some r => let xs := r.bursts.flatMap fun b => b.writes.map Piece.xid; xs.contains x && xs.contains y
    | none => false

/-- An earlier write of the same transfer to the same stack is not yet accepted: the controller is one point of coherence (R10, R311). Of a transfer on another chip only its core is known here, so the writes of one core stay in order (log entry 114). -/
def State.olderWrite (s : State) (h : Nat) (m : InMsg) : Bool :=
  let wide (b : SvcBody) : Bool := match b with | .write _ _ _ false _ => true | _ => false
  let site (u : Nat) : Bool := decide (unitHbm h 0 ≤ unitLocal u ∧ unitLocal u ≤ unitHbm h 15)
  let l := unitLocal m.src
  let same (x : Nat) : Bool := decide (x < m.xid) && (unitChip m.src != s.chipId || decide (3072 ≤ l) || (s.coreAt l).oneTransfer x m.xid)
  wide m.body && (s.svc.out.any (fun p => p.src == m.src && !p.arrived && site p.dst && wide p.body && same p.xid)
    || s.svc.inbox.any fun q => q.src == m.src && site q.unit && wide q.body && same q.xid)

/-- What a service-network access of a stack answers. -/
def State.svcAccess (s : State) (m : InMsg) (h key : Nat) (x : Ecc) : State :=
  if (s.stk h).fsm.st ≠ .on then s.answer m (.err 5)
  else if 2 ≤ x.par then s.answer m (.err 9)
  else match m.body with
    | .read _ n => let r := s.hbmRead h key n x; r.1.answer m (.readResp r.2.1 (if r.2.2.isEmpty then .raw else .poison) r.2.2)
    | .write _ d pz _ _ => (s.hbmWrite h key d pz x).answer m .ack
    | _ => s

/-- The bytes that a request names. -/
def SvcBody.bytes : SvcBody → Nat
  | .read _ n => n
  | .write _ d _ _ _ => d.length
  | _ => 0

/-- The oldest service-network request of a channel is accepted in a slot that mesh items leave free (R437). -/
def State.svcAccept (s : State) (h j : Nat) (x : Ecc) : State :=
  match s.takeInbox (fun m => m.unit == unitOf s.chipId (unitHbm h j)) with
  | none => s
  | some (m, s0) =>
    let key := m.phys.getD 0
    let pc := keyPc key
    if !s.slotFree h (2 * j + pc % 2) ∨ s.meshFirst h j key m.body.bytes ∨ s0.olderWrite h m then s
    else ((s0.setStk h ((s0.stk h).slot (2 * j + pc % 2) false)).parity h pc x).svcAccess m h key x

/-! ## Maintenance (R446 to R451) -/

/-- A job runs (DEV READY, JOB RUNNING). -/
def State.jobRuns (s : State) : Bool := s.hif.job == 3

/-- A paced job runs. -/
def State.pacedJob (s : State) : Bool := s.job.paced && s.jobRuns

/-- Maintenance may act now: free-running, or a maintenance period of the paced job (R446, R521, R641). -/
def State.maintNow (s : State) : Bool :=
  !s.pacedJob || (decide (s.job.maint ≠ 0) && decide (s.job.per ≠ 0) && decide (s.job.t0 ≤ s.tb)
    && decide ((s.tb - s.job.t0) / s.job.per % s.job.maint = s.job.maint - 1))

/-- The byte key of a word in the order of patrol scrub: block, pseudo-channel, word. -/
def scrubKey (w : Nat) : Nat := hbmKey (w / 8 % 32) (w / 256) (w % 8 * 32)

/-- 32-byte words of a stack. -/
def stackWords : Nat := 32 * pcBlocks * 8

/-- No request waits for a channel: its accept slots are free (R446). -/
def State.channelIdle (s : State) (h j : Nat) : Bool :=
  (s.egress (memNode h j)).isNone && !s.svc.inbox.any fun m => m.unit == unitOf s.chipId (unitHbm h j)

/-- What the Drip keeps of a word that it has read: uncorrectable, or corrected once more (R451). -/
def Hbm.noted (k : Hbm) (w : Nat) (x : Ecc) : Hbm :=
  if x.ue.any fun u => u.1 == w then { k with found := if k.found.contains w then k.found else k.found ++ [w] }
  else if x.ce.contains w then { k with weak := mupd 0 k.weak w (· + 1) } else k

/-- PATROL_SCRUB_READ (R446): one word, checked under R444, from a free accept slot or in a maintenance window. -/
def State.patrolRead (s : State) (h : Nat) (x : Ecc) : State :=
  let k := s.stk h
  let w := scrubKey k.scrubWord / 32
  if k.fsm.st = .on ∧ k.patrol ∧ s.mc.drip.st = .on ∧ s.maintNow ∧ s.inWindow h = false ∧ (s.pacedJob ∨ s.channelIdle h (keyPc (32 * w) / 2)) then
    let s1 := s.checkWord h w x
    let k1 := (s1.stk h).noted w x
    s1.setStk h (if k1.scrubWord + 1 = stackWords then { k1 with scrubWord := 0, passes := k1.passes + 1, passFrom := s.tb, late := false }
      else { k1 with scrubWord := k1.scrubWord + 1 })
  else s

/-- 4 h in ticks (R446). -/
def patrolTicks : Nat := 4 * 3600 * 1000000000

/-- PATROL_OVERDUE (R446). -/
def State.patrolOverdue (s : State) (h : Nat) : State :=
  let k := s.stk h
  if k.fsm.st = .on ∧ k.patrol ∧ k.late = false ∧ k.passFrom + patrolTicks ≤ s.tb then
    (s.setStk h { k with late := true }).siteRecord h 0 0x11 0 0 k.passes
  else s

/-- Doubled refresh is in force, from temperature or from HOTREF (R449). -/
def State.hot (s : State) (h : Nat) : Bool := let k := s.stk h; k.doubled || (k.hotref && s.pacedJob && decide (s.job.t0 ≤ s.tb))

/-- The interval of refresh windows (R448). -/
def State.windowEvery (s : State) (h : Nat) : Nat := if s.hot h then 1950 else 3900

/-- The first pace boundary of the job at or after a tick. -/
def State.boundaryAfter (s : State) (t : Nat) : Nat := s.job.t0 + (t - s.job.t0 + s.job.per - 1) / s.job.per * s.job.per

/-- REFRESH_WINDOW (R448). -/
def State.refreshWindow (s : State) (h : Nat) : State :=
  let k := s.stk h
  if s.pacedJob ∧ s.job.per ≠ 0 ∧ k.fsm.st = .on then
    let due := max k.due (s.job.t0 + s.windowEvery h)
    let b := s.boundaryAfter due
    if b ≤ s.tb then s.setStk h { k with winEnd := b + 280, due := due + s.windowEvery h } else s
  else s

/-- BANK_REFRESH (R447). -/
def State.bankRefresh (s : State) (h pc : Nat) : State :=
  let k := s.stk h
  if k.fsm.st = .on ∧ s.pacedJob = false then s.setStk h { k with bank := mupd 0 k.bank pc (· + 1) } else s

/-- DOUBLED_REFRESH_BEGIN: a reading above 85 °C (R449). -/
def State.hotBegin (s : State) (h temp : Nat) : State :=
  let k := s.stk h
  if k.fsm.st ≠ .on then s
  else
    let s1 := s.setStk h { k with temp := temp }
    if 85 < temp ∧ s.hot h = false then (s1.setStk h { s1.stk h with doubled := true }).siteRecord h 0 0x12 0 0 temp else s1

/-- A job has ended: doubled refresh follows the temperature again (R449). -/
def State.coolStacks (s : State) : State :=
  { s with hbm := s.hbm.map fun p => (p.1, { p.2 with doubled := p.2.fsm.st == .on && decide (85 < p.2.temp) }) }

/-- DOUBLED_REFRESH_END: a reading at or below 85 °C; within a paced job it stays in force (R449). -/
def State.hotEnd (s : State) (h temp : Nat) : State :=
  let k := s.stk h
  if k.fsm.st ≠ .on then s
  else s.setStk h { k with temp := temp, doubled := k.doubled && (decide (85 < temp) || s.pacedJob) }

/-- A word lies in a row of a pseudo-channel. -/
def inRow (pc row w : Nat) : Bool := decide (keyPc (32 * w) = pc ∧ Config.rowOf (keyBlock (32 * w)) = row)

/-- The Drip has found an uncorrectable word in the row, or more corrected errors than the threshold (R451). -/
def Hbm.rowBad (k : Hbm) (pc row : Nat) : Bool :=
  k.found.any (inRow pc row) || decide (Config.repairThreshold < ((k.weak.filter fun p => inRow pc row p.1).map Prod.snd).sum)

/-- SOFT_REPAIR: the row is read through ECC and written back with its markers; a repair that the stack refuses leaves it as it was (R451). -/
def State.softRepair (s : State) (h pc row : Nat) (ok : Bool) (x : Ecc) : State :=
  let k := s.stk h
  if k.fsm.st = .on ∧ s.mc.drip.st = .on ∧ s.maintNow ∧ s.inWindow h = false ∧ (s.pacedJob ∨ s.channelIdle h (pc / 2)) ∧ k.rowBad pc row then
    if ok then
      let s1 := ((x.ue.map Prod.fst ++ x.ce).filter (inRow pc row)).foldl (fun s w => s.checkWord h w x) s
      let k1 := s1.stk h
      let s2 := s1.setStk h { k1 with ppr := k1.ppr + 1, fixed := k1.fixed ++ [(pc, row)]
                                      found := k1.found.filter fun w => !inRow pc row w, weak := k1.weak.filter fun p => !inRow pc row p.1 }
      { s2 with nor := { s2.nor with repairs := s2.nor.repairs ++ [(h, pc, row)] } }
    else s.siteRecord h pc 0x10 0 pc row
  else s

/-! ## The region table's start and stop (R443) -/

/-- The offset ranges of two entries overlap, or their pseudo-channels and block ranges do. -/
def State.regionsMeet (s : State) (a b : Region) : Bool :=
  let blocks (r : Region) : Nat := if s.coveredPcs r = 0 then 0 else r.size / (256 * s.coveredPcs r)
  let pcs : Bool := (s.covered a).any fun h => (s.covered b).contains h
    && !(a.mode == 3 && b.mode == 3 && a.ch != b.ch)
  rangesMeet a.vbase a.size b.vbase b.size || (pcs && rangesMeet a.pbase (blocks a) b.pbase (blocks b))

/-- The refusals of a start. -/
def State.regionRefused (s : State) (n : Nat) : Bool :=
  let r := s.region n
  let p := s.coveredPcs r
  r.size == 0 || p == 0 || r.size % (256 * p) != 0 || decide (pcBlocks < r.pbase + r.size / (256 * p))
    || ((r.mode == 2 || r.mode == 3) && !s.sitePresent r.tgt) || (r.mode == 1 && decide (1 < r.tgt))
    || (s.covered r).any (fun h => (s.stk h).fsm.st != .on)
    || decide (3 < r.mode) || decide (2 ^ 48 < r.vbase + r.size) || r.rsvd != 0
    || s.regions.any (fun q => q.1 != n && q.2.fsm.st != .off && s.regionsMeet r q.2)

/-- The entry's enable has changed: a stop begins now (R441). -/
def Region.moved (r : Region) (f : EnFsm) (tb : Nat) : Region :=
  if f.st = .stopping ∧ r.fsm.st ≠ .stopping then { r with fsm := f, stopAt := tb, stops := r.stops + 1 } else { r with fsm := f }

/-- REGION_START_COMPLETE. -/
def State.regionStart (s : State) (n : Nat) : State :=
  let r := s.region n
  s.setRegion n (r.moved (if s.regionRefused n then r.fsm.startRefused else r.fsm.startOk) s.tb)

/-- A write of EN. -/
def State.regionEnable (s : State) (n : Nat) (v : Bool) : State := let r := s.region n; s.setRegion n (r.moved (r.fsm.write v) s.tb)

/-- REGION_STOP_COMPLETE: every point has dropped the entry. -/
def State.regionStop (s : State) (n : Nat) : State := let r := s.region n; s.setRegion n { r with fsm := r.fsm.stopDone }

/-! ## Stacks (R453) -/

/-- An entry that is not OFF covers a stack. -/
def State.stackCovered (s : State) (h : Nat) : Bool := s.regions.any fun q => q.2.fsm.st != .off && (s.covered q.2).contains h

/-- A write of EN; nothing happens at an absent stack (R654). -/
def State.stackEnable (s : State) (h : Nat) (v : Bool) : State :=
  let k := s.stk h
  if !s.sitePresent h then s
  else if !v ∧ s.stackCovered h then s.setStk h { k with refused := true }
  else s.setStk h { k with fsm := k.fsm.write v }

/-- STACK_START_COMPLETE: trained and wiped. -/
def State.stackStart (s : State) (h : Nat) (ok : Bool) : State :=
  let k := s.stk h
  if k.fsm.st ≠ .starting then s
  else if ok then s.setStk h { k with fsm := k.fsm.startOk, mem := [], mark := [], passFrom := s.tb, late := false, scrubWord := 0 }
  else s.setStk h { k with fsm := k.fsm.startRefused }

/-- STACK_STOP_COMPLETE: every accepted request is complete. -/
def State.stackStop (s : State) (h : Nat) : State :=
  let k := s.stk h
  s.setStk h (if k.fsm.st = .stopping then { k with fsm := k.fsm.stopDone, temp := 0, doubled := false, found := [], weak := [], fixed := [] } else k)

/-! ## Meanings -/

/-- REFRESH_WINDOW (R448). -/
def execRefreshWindow (h : Fin 6) (s : State) : Out := .next (s.refreshWindow h.val)
/-- BANK_REFRESH (R447). -/
def execBankRefresh (h : Fin 6) (pc : Fin 32) (s : State) : Out := .next (s.bankRefresh h.val pc.val)
/-- PATROL_OVERDUE (R446). -/
def execPatrolOverdue (h : Fin 6) (s : State) : Out := .next (s.patrolOverdue h.val)
/-- SOFT_REPAIR (R451). -/
def execSoftRepair (h : Fin 6) (pc : Fin 32) (row : Nat) (x : RepairTry) (s : State) : Out := .next (s.softRepair h.val pc.val row x.ok x.x)
/-- DOUBLED_REFRESH_BEGIN (R449). -/
def execDoubledRefreshBegin (h : Fin 6) (temp : BitVec 8) (s : State) : Out := .next (s.hotBegin h.val temp.toNat)
/-- DOUBLED_REFRESH_END (R449). -/
def execDoubledRefreshEnd (h : Fin 6) (temp : BitVec 8) (s : State) : Out := .next (s.hotEnd h.val temp.toNat)
/-- REGION_ENABLE (R443). -/
def execRegionEnable (n : Fin 16) (s : State) : Out := .next (s.regionEnable n.val true)
/-- REGION_DISABLE (R443). -/
def execRegionDisable (n : Fin 16) (s : State) : Out := .next (s.regionEnable n.val false)
/-- REGION_START_COMPLETE (R443). -/
def execRegionStartComplete (n : Fin 16) (s : State) : Out := .next (s.regionStart n.val)
/-- REGION_STOP_COMPLETE (R443). -/
def execRegionStopComplete (n : Fin 16) (s : State) : Out := .next (s.regionStop n.val)
/-- STACK_ENABLE (R453). -/
def execStackEnable (h : Fin 6) (s : State) : Out := .next (s.stackEnable h.val true)
/-- STACK_DISABLE (R453). -/
def execStackDisable (h : Fin 6) (s : State) : Out := .next (s.stackEnable h.val false)
/-- STACK_START_COMPLETE (R453). -/
def execStackStartComplete (h : Fin 6) (ok : Bool) (s : State) : Out := .next (s.stackStart h.val ok)
/-- STACK_STOP_COMPLETE (R453). -/
def execStackStopComplete (h : Fin 6) (s : State) : Out := .next (s.stackStop h.val)

end Sys2Proof.Machine
end

