-- ==== Sys2Proof/Machine/Links.lean ====
section
/-! DEFINITION. Sarlo links: cells, replay, credits, urgent units, lane sparing, training and port failure (spec 15 R459 to R485, R493; 22 R630). -/

namespace Sys2Proof.Machine

/-! ## Ports that go down -/

/-- The cell and unit state of a port that starts or ends: only its control, its status and its counters stay. -/
def Lnk.fresh (p : Lnk) : Lnk :=
  { fsm := p.fsm, fec := p.fec, sparen := p.sparen, spthr := p.spthr, dcause := p.dcause, miswired := p.miswired, long := p.long
    spared := p.spared, lmap := p.lmap, delay := p.delay, fecce := p.fecce, fecue := p.fecue, crce := p.crce, replay := p.replay
    peerV := p.peerV, peerChip := p.peerChip, peerPort := p.peerPort, delayAt := p.delayAt, tx := p.tx }

/-- A TIME record (Table 22-5): DETAIL is the last offset, signed. -/
def State.timeRecord (s : State) (sev key : Nat) : State := s.mcRecord 0x15 sev key (natOfInt 48 s.tbr.offset)

/-- Entering HOLDOVER (R490). -/
def State.holdover (s : State) : State :=
  if s.tbr.root ∨ s.tbr.state = 3 then s
  else { s with tbr := { s.tbr with state := 3, holdAt := s.tb, good := 0 } }.timeRecord 0 1

/-- The streams of held VL0 cells. -/
def Lnk.heldStreams (p : Lnk) : List Nat :=
  p.held.filterMap fun c => match c.1.body with | .vl0 fs => fs.head?.map Flit.stream | _ => none

/-- Every valid stream of a node's stream table. -/
def Router.streams (r : Router) : List Nat := (r.stab.filter fun q => stabV q.2).map fun q => stabStream q.2

/-- Packets queued at a port are answered with failed path (R478). -/
def State.bounceQueue (s : State) (ws : List SvcWire) : State :=
  ws.foldl (fun s w => match w with
    | .pkt p true => s.svcBounce p 7
    | _ => s) s

/-- A port goes to OFF on its own account or at the end of STOPPING, and what depends on it meets that: lines, streams, packets and time (R346, R478, R490). -/
def State.portOff (s : State) (k : Nat) (fsm : EnFsm) (dcause lineCause : Nat) (streams : List Nat) : State :=
  let p := s.port k
  let s1 := s.setPort k { p.fresh with fsm := fsm, dcause := dcause }
  let s2 := s1.setWire (linkNode k) 5 []
  let s3 := streams.foldl (fun s st => s.failStream (linkNode k) st) s2
  let s4 := s3.bounceQueue p.tx1
  let s5 := s4.breakPort k lineCause
  if s5.tbr.upv ∧ s5.tbr.up = k then s5.holdover else s5

/-- The SEQ that a port-failure record gives: of the oldest cell held, else the next one. -/
def Lnk.recordSeq (p : Lnk) : Nat := (p.held.head?.map fun c => c.1.seq).getD p.seq

/-- A port fails (R478). -/
def State.portFail (s : State) (k dcause lineCause : Nat) : State :=
  let p := s.port k
  if p.fsm.st = .on ∨ p.fsm.st = .stopping then
    (s.portRecord k 0 0x14 2 dcause p.recordSeq).portOff k p.fsm.ownClear dcause lineCause (s.router (linkNode k)).streams
  else s

/-! ## What goes on the lanes (R459 to R463, R471) -/

/-- The 64-byte slots that a cell uses, without the poison extension, and their marks (R460 to R462). -/
def CellBody.slots : CellBody → List (List Byte × BitVec 8)
  | .vl0 fs => fs.map fun f => (f.data, f.psn)
  | .vl1 (.pkt p last) =>
    let x := p.body.payload
    let per := if x.2 then 24 else 32
    let n := x.1 + 2
    let from_ := if last then (n - 1) / per * per else 0
    (List.range (((if last then n - from_ else per) + 7) / 8)).map fun i =>
      ((List.range 8).flatMap fun j => let w := from_ + 8 * i + j; if w < n then leBytes 8 (Config.svcFlit p.src p.dst p.cls p.seq w).toNat else List.replicate 8 0, 0)
  | .vl1 (.ack a b c d) => [(leBytes 8 (Config.svcFlit a b c d 0).toNat ++ List.replicate 56 0, 0)]
  | .idle => []

/-- PX: a flit of the cell carries a mark. -/
def CellBody.px (b : CellBody) : Bool :=
  match b with
  | .vl1 (.pkt p _) => p.body.payload.2
  | _ => b.slots.any fun x => x.2 != 0

/-- The 256 bytes of a cell's payload; with PX, slot 3 holds the marks of the others. -/
def CellBody.payload (b : CellBody) : List Byte :=
  let slot (d : List Byte) : List Byte := (d ++ List.replicate 64 0).take 64
  let used := (b.slots.take (if b.px then 3 else 4)).flatMap fun x => slot x.1
  if b.px then (used ++ List.replicate 192 0).take 192 ++ slot ((b.slots.take 3).map Prod.snd) else (used ++ List.replicate 256 0).take 256

/-- Bits [31:0] of a cell's header (Table 15-2). -/
def Cell.low (c : Cell) : BitVec 32 :=
  let fs := match c.body with | .vl0 fs => fs | _ => []
  let stream := match c.body with
    | .vl0 fs => (fs.head?.map Flit.stream).getD 0
    | .vl1 (.pkt p _) => p.cls * 256
    | .vl1 (.ack _ _ cls _) => cls * 256
    | .idle => 0
  let type := match c.body with | .vl0 _ => 0 | .vl1 _ => 1 | .idle => 2
  let idle := c.body == .idle
  (pack [(type, 30, 2), (if idle then 0 else c.seq, 23, 7), (c.ack, 16, 7), (stream, 6, 10), (c.body.slots.length - 1, 4, 2)
    , (b2n ((fs.head?.map Flit.hd).getD false), 3, 1), (b2n ((fs.getLast?.map Flit.tr).getD false), 2, 1)
    , (b2n ((fs.getLast?.map Flit.ovf).getD false), 1, 1), (b2n c.body.px, 0, 1)]).setWidth 32

/-- The CRC of a cell, sent inverted (R459). -/
def Cell.crc (c : Cell) : BitVec 32 := ~~~(Config.crc32 (leBytes 4 c.low.toNat ++ c.body.payload))

/-- The 264 bytes of a cell (R459). -/
def Cell.image (c : Cell) : List Byte := leBytes 4 c.low.toNat ++ leBytes 4 c.crc.toNat ++ c.body.payload

/-- Bits [127:16] of an urgent unit: KIND, USEQ, zero and the body (R471). -/
def Urgent.high (u : Urgent) : BitVec 112 := BitVec.ofNat 4 u.kind ++ BitVec.ofNat 8 u.useq ++ (0 : BitVec 4) ++ u.body
def Urgent.crc (u : Urgent) : BitVec 16 := Config.crc16 u.high
/-- The 16 bytes of an urgent unit (R471). -/
def Urgent.image (u : Urgent) : BitVec 128 := u.high ++ u.crc

/-- A lane swap has been agreed and its codeword count reached: cells and units are held (R476, R477). -/
def Lnk.holds (p : Lnk) : Bool := match p.swap with | some (n, _) => decide ((p.cwords + 2 ^ 32 - n % 2 ^ 32) % 2 ^ 32 < 2 ^ 31) | none => false

/-! ## Cells (R459 to R463, R466 to R470) -/

/-- The port's cells and units move: it is ON, or STOPPING. -/
def Lnk.up (p : Lnk) : Bool := p.fsm.st == .on || p.fsm.st == .stopping

/-- Flits of one item for the next VL0 cell: up to four, three with a mark, closed at the trailer (R460, R462). -/
def cellFlits : Nat → List Flit → List Flit
  | 0, _ => []
  | _, [] => []
  | k + 1, f :: r =>
    if f.tr then [f]
    else match r with
      | g :: _ => if g.stream = f.stream ∧ g.hd = false then f :: cellFlits k r else [f]
      | [] => [f]

def nextVl0 (fs : List Flit) : List Flit :=
  let c := cellFlits 4 fs
  if c.any (fun f => f.psn ≠ 0) then c.take 3 else c

/-- A new data cell is put on the lanes and kept. -/
def Lnk.sendNew (p : Lnk) (tb : Nat) (b : CellBody) : Lnk :=
  let c : Cell := { seq := p.seq, ack := p.lastAck, body := b }
  { p with seq := (p.seq + 1) % 128, held := p.held ++ [(c, 1)], tx := p.tx ++ [.cell c], gap := p.gap + 1
           progAt := if p.held = [] then tb else p.progAt, rpAt := if p.held = [] then tb else p.rpAt }

/-- A cell is sent again. -/
def Lnk.sendAgain (p : Lnk) (c : Cell) (rest : List Cell) : Lnk :=
  let c1 := { c with ack := p.lastAck }
  { p with resend := rest, tx := p.tx ++ [.cell c1], gap := p.gap + 1
           held := p.held.map fun h => if h.1.seq = c.seq then (h.1, h.2 + 1) else h }

/-- An idle cell carries ACK. -/
def Lnk.sendIdle (p : Lnk) : Lnk := { p with tx := p.tx ++ [.cell { seq := 0, ack := p.lastAck, body := .idle }], gap := p.gap + 1 }

/-- CELL_SEND: a cell to be sent again comes first; a new data cell needs a credit and room among the 64; else an idle cell goes (R466 to R468). VL1 goes when it has had none of the last three cells, or VL0 has none to send (log entry 25). -/
def State.cellSend (s : State) (k : Nat) : State :=
  let p := s.port k
  if !p.up ∨ p.holds then s
  else match p.resend with
    | c :: rest => s.setPort k (p.sendAgain c rest)
    | [] =>
      let fs := s.wire (linkNode k) 5
      let room := p.fsm.st == .on && decide (p.held.length < 64)
      let can0 := room && decide ((p.sent0 + 65536 - p.free0) % 65536 < 64) && fs != []
      let can1 := room && decide ((p.sent1 + 65536 - p.free1) % 65536 < 32) && p.tx1 != []
      if can1 ∧ (3 ≤ p.since1 ∨ !can0) then
        match p.tx1 with
        | w :: r => s.setPort k ({ p with tx1 := r, sent1 := (p.sent1 + 1) % 65536, since1 := 0 }.sendNew s.tb (.vl1 w))
        | [] => s
      else if can0 then
        let c := nextVl0 fs
        (s.setWire (linkNode k) 5 (fs.drop c.length)).setPort k ({ p with sent0 := (p.sent0 + 1) % 65536, since1 := p.since1 + 1 }.sendNew s.tb (.vl0 c))
      else s.setPort k p.sendIdle

/-- ACK covers the held cells up to its SEQ. -/
def Lnk.acked (p : Lnk) (tb ack : Nat) : Lnk :=
  let covered (c : Cell) : Bool := decide ((ack + 128 - c.seq) % 128 < 64)
  let held := p.held.dropWhile fun h => covered h.1
  if held.length = p.held.length then p
  else { p with held := held, progAt := tb, rpAt := tb, resend := p.resend.filter fun c => held.any fun h => h.1.seq == c.seq }

/-- Asking for replay of cells from the expected SEQ, once (R467). -/
def Lnk.askCells (p : Lnk) : Lnk :=
  if p.asked then p else { p with asked := true }.ready 5 (BitVec.ofNat 96 (p.expSeq + p.uexp * 256 + 65536))

/-- Asking for replay of units from the expected USEQ, after every gap or CRC failure; one request that waits to be sent is enough (R472). -/
def Lnk.askUnits (p : Lnk) : Lnk :=
  let body := BitVec.ofNat 96 (p.expSeq + p.uexp * 256 + 131072)
  if p.uready.contains { kind := 5, body := body } then p else p.ready 5 body

/-- The packet that a run of VL1 cells ends, or an acknowledgement, reaches the service network (R404, R461). -/
def State.svcIn (s : State) (k : Nat) : SvcWire → State
  | .pkt p _ => { s with svc := { s.svc with out := s.svc.out ++ [{ p with foreign := true, arrived := false, phys := none, inPort := k }] } }
  | .ack src dst cls seq =>
    if unitChip src = s.chipId then
      { s with svc := { s.svc with out := s.svc.out.map fun q =>
        if q.src = src ∧ q.dst = dst ∧ q.cls = cls ∧ q.seq = seq ∧ q.foreign = false then { q with arrived := true } else q } }
    else match s.portTo (unitChip src) with
      | some k => s.toPort k [.ack src dst cls seq]
      | none => s

/-- The content of an accepted cell goes on: every flit takes the cell's OVF (R463). -/
def State.cellIn (s : State) (k : Nat) : CellBody → State
  | .vl0 fs =>
    let ovf := (fs.getLast?.map Flit.ovf).getD false
    let p := s.port k
    (s.setPort k { p with rx0 := p.rx0 ++ [fs.length] }).putFlits (linkNode k) 4 (fs.map fun f => { f with ovf := ovf })
  | .vl1 w =>
    let p := s.port k
    let s1 := s.setPort k { p with freed1 := (p.freed1 + 1) % 65536 }
    match w with
    | .pkt _ false => s1
    | _ => s1.svcIn k w
  | .idle => s

/-- Symbols that the port's code corrects in a codeword (R464). -/
def Lnk.corrects (p : Lnk) : Nat := if p.long then 15 else 4

/-- The codewords that a cell came in, each as the physical lanes of its symbols in error: corrected symbols and uncorrectable codewords are counted, by lane for the 1 ms window too (R464, R476). -/
def Lnk.fecIn (p : Lnk) (tb : Nat) (words : List (List Nat)) : Lnk :=
  let fixed := (words.filter fun w => decide (w.length ≤ p.corrects)).flatten
  let lanes := if p.errWin = tb / 1000000 then p.laneErr else []
  { p with cwords := (p.cwords + words.length) % 2 ^ 32, fecce := p.fecce + fixed.length, fecue := p.fecue + words.countP fun w => decide (p.corrects < w.length)
           errWin := tb / 1000000, laneErr := fixed.foldl (fun m l => mupd 0 m l (· + 1)) lanes, laneSum := fixed.foldl (fun m l => mupd 0 m l (· + 1)) p.laneSum }

/-- CELL_RECEIVE (R467): `words` are the codewords that it came in, `crc` the CRC that it carries. A cell with a codeword that does not decode, or with another CRC, is discarded. -/
def State.cellReceive (s : State) (k : Nat) (c : Cell) (words : List (List Nat)) (crc : BitVec 32) : State :=
  let p := (s.port k).fecIn s.tb words
  if !p.up ∨ p.holds then s
  else if words.any (fun w => decide (p.corrects < w.length)) ∨ crc ≠ c.crc then s.setPort k { p with crce := p.crce + b2n (crc != c.crc) }.askCells
  else
    let p1 := p.acked s.tb c.ack
    match c.body with
    | .idle => s.setPort k p1
    | b =>
      if c.seq ≠ p1.expSeq then s.setPort k p1.askCells
      else (s.setPort k { p1 with expSeq := (p1.expSeq + 1) % 128, lastAck := c.seq, asked := false }).cellIn k b

/-- Sending again every unacknowledged cell from a SEQ (R467). -/
def Lnk.replayFrom (p : Lnk) (tb seq : Nat) : Lnk :=
  let cs := (p.held.map Prod.fst).dropWhile fun c => c.seq != seq
  { p with resend := cs, replay := p.replay + 1, rpAt := tb }

/-- REPLAY_TIMEOUT: no progress in ACK for 512 ns (R467). -/
def State.replayTimeout (s : State) (k : Nat) : State :=
  let p := s.port k
  match p.held with
  | [] => s
  | h :: _ => if p.up ∧ p.rpAt + 512 ≤ s.tb then s.setPort k (p.replayFrom s.tb h.1.seq) else s

/-- PORT_ACK_TIMEOUT (R470). -/
def State.portAckTimeout (s : State) (k : Nat) : State :=
  let p := s.port k
  if p.up ∧ p.held ≠ [] ∧ (p.progAt + 100000 ≤ s.tb ∨ p.held.any fun h => decide (16 ≤ h.2)) then s.portFail k 4 2 else s

/-! ## Urgent units (R471 to R475) -/

/-- Whether a unit that arrives with a CRC is delivered: one whose CRC fails, or whose KIND is not its command's (which stands for a reserved KIND), is counted and discarded; a sequenced one must be the next (R471, R472, log entry 26). -/
def State.unitIn (s : State) (k kind : Nat) (u : Urgent) (crc : BitVec 16) (f : State → State) : State :=
  let p := s.port k
  if !p.up ∨ p.holds then s
  else if crc ≠ u.crc ∨ u.kind ≠ kind then s.setPort k { p with crce := p.crce + 1 }.askUnits
  else if urgentSequenced kind then
    if u.useq = p.uexp then f (s.setPort k { p with uexp := (p.uexp + 1) % 255 })
    else if (u.useq + 255 - p.uexp) % 255 < 128 then s.setPort k p.askUnits
    else s
  else f s

/-- Bits of a unit's body. -/
def ubits (u : Urgent) (lo n : Nat) : Nat := u.body.toNat / 2 ^ lo % 2 ^ n

/-- The unit to send next: sequenced units to be sent again go in their own order, the rest in the order of Table 15-5; a port that is STOPPING sends nothing new (R479). -/
def Lnk.nextUnit (p : Lnk) : Option Urgent :=
  let again := p.uready.find? fun u => urgentSequenced u.kind && u.useq != 255
  let fit := (if p.fsm.st = .on then p.uready else again.toList).filter fun u => if !urgentSequenced u.kind then true else match again with
    | some v => u == v
    | none => decide (p.uheld.length < 32)
  fit.foldl (fun best u => match best with
    | none => some u
    | some v => if urgentRank u.kind < urgentRank v.kind then some u else some v) none

/-- URGENT_UNIT_SEND: the TB of a BEACON or DELAY unit and its fraction are stamped as its first bit leaves (R471, R472, R487, R488). -/
def State.urgentSend (s : State) (k : Nat) : State :=
  let p := s.port k
  if !p.up ∨ p.gap < 4 ∨ p.holds then s
  else match p.nextUnit with
    | none => s
    | some u =>
      let rest := p.uready.erase u
      let stamped := u.kind == 2 || u.kind == 8
      let at_ := s.tb * 65536 + s.tbr.frac
      let body := if stamped then BitVec.ofNat 96 (u.body.toNat / 2 ^ 80 * 2 ^ 80 + s.tbr.frac * 2 ^ 64 + s.tb % 2 ^ 64) else u.body
      let fresh := urgentSequenced u.kind && u.useq == 255
      let v : Urgent := { kind := u.kind, useq := if fresh then p.useq else u.useq, body := body }
      s.setPort k { p with uready := rest, gap := 0, tx := p.tx ++ [.unit v]
                           useq := if fresh then (p.useq + 1) % 255 else p.useq
                           uheld := if fresh then p.uheld ++ [v] else p.uheld
                           asking := if u.kind = 8 ∧ ubits u 80 1 = 0 then some at_ else p.asking }

/-- REPLAY_UNIT_ARRIVAL (R467, R472). -/
def State.replayUnit (s : State) (k : Nat) (u : Urgent) (crc : BitVec 16) : State :=
  s.unitIn k 5 u crc fun s =>
    let p := s.port k
    let p1 := if ubits u 16 1 = 1 then p.replayFrom s.tb (ubits u 0 7) else p
    s.setPort k (if ubits u 17 1 = 1 then
      { p1 with uready := (p1.uheld.dropWhile fun v => v.useq != ubits u 8 8) ++ p1.uready.filter fun v => !(urgentSequenced v.kind && v.useq != 255) } else p1)

/-- LCREDIT_ARRIVAL (R468, R472). -/
def State.lcreditIn (s : State) (k : Nat) (u : Urgent) (crc : BitVec 16) : State :=
  s.unitIn k 3 u crc fun s =>
    let p := s.port k
    let last := ubits u 32 8
    let held := p.uheld.dropWhile fun v => decide ((last + 255 - v.useq) % 255 < 32)
    s.setPort k { p with free0 := ubits u 0 16, free1 := ubits u 16 16, uheld := held
                         uready := p.uready.filter fun v => !(urgentSequenced v.kind && v.useq != 255) || held.contains v }

/-- VL0 cells whose flits have all left the receive buffer; CCREDIT items take none of it. -/
def Lnk.freeCells (left : Nat) : List Nat → Nat × List Nat
  | [] => (0, [])
  | c :: r => if left ≤ r.sum then let x := Lnk.freeCells left r; (x.1 + 1, x.2) else (0, c :: r)

/-- LCREDIT_SEND: after 8 freed cells on a lane, and every 1 µs while any has not been reported (R468). -/
def State.lcreditSend (s : State) (k : Nat) : State :=
  let p := s.port k
  if !p.up then s
  else
    let x : Nat × List Nat := Lnk.freeCells ((s.wire (linkNode k) 4).countP fun f => f.kind != 5) p.rx0
    let p1 : Lnk := { p with freed0 := (p.freed0 + x.1) % 65536, rx0 := x.2 }
    let n0 := (p1.freed0 + 65536 - p1.told0) % 65536
    let n1 := (p1.freed1 + 65536 - p1.told1) % 65536
    if 8 ≤ n0 ∨ 8 ≤ n1 ∨ (0 < n0 + n1 ∧ p.lcAt + 1000 ≤ s.tb) then
      s.setPort k ({ p1 with told0 := p1.freed0, told1 := p1.freed1, lcAt := s.tb }.ready 3
        (BitVec.ofNat 96 (p1.freed0 + p1.freed1 * 65536 + (p1.uexp + 254) % 255 * 2 ^ 32)))
    else s.setPort k p1

/-- CCREDIT_ARRIVAL: a one-flit credit-return item on its stream (R473, Table 12-3). -/
def State.ccreditIn (s : State) (k : Nat) (u : Urgent) (crc : BitVec 16) : State :=
  s.unitIn k 4 u crc fun s =>
    s.putFlits (linkNode k) 4 [{ stream := ubits u 0 10, kind := 5, hd := true, tr := true, data := headFlit (BitVec.ofNat 64 (ubits u 32 64)) 0 }]

/-- CHIPDOWN_ARRIVAL (R478, R630). -/
def State.chipdownIn (s : State) (k : Nat) (u : Urgent) (crc : BitVec 16) : State :=
  s.unitIn k 6 u crc fun s =>
    let c := ubits u 0 12
    let s1 := (s.portFail k 5 4)
    let s2 := { s1 with crt := s1.crt.map fun q => if q.1 = c then (q.1, { q.2 with v := false }) else q }
    if s2.mc.chipsDown.contains c then s2
    else { s2 with mc := { s2.mc with chipsDown := s2.mc.chipsDown ++ [c] } }.mcRecord 0x1D 2 k c

/-! ## Lane sparing (R476 to R478) -/

/-- A physical lane that carries a logical lane now. -/
def Lnk.laneUsed (p : Lnk) (lane : Nat) : Bool := if lane = 8 then p.spared else !p.lmap.any fun q => q.1 == lane

/-- A lane has failed: LANE.8 takes its place at a codeword count at least 256 ahead, `n` beyond that; the port fails when LANE.8 is in use, lost or promised to another lane (R470, R476, R478). LANE.8 lost while it is idle is no failure yet. -/
def State.laneFail (s : State) (k lane n : Nat) : State :=
  let p := s.port k
  if !p.up then s
  else if !p.laneUsed lane then
    (if lane = 8 then (if p.swap.isSome then s.portFail k 3 2 else s.setPort k { p with lmap := mset p.lmap 8 8 }) else s)
  else match p.swap with
    | some (_, other) => if other = lane then s else s.portFail k 3 2
    | none =>
      if p.lmap ≠ [] then s.portFail k 3 2
      else if p.sparen then
        let at_ := (p.cwords + 256 + n) % 2 ^ 32
        s.setPort k ({ p with swap := some (at_, lane) }.ready 7 (BitVec.ofNat 96 (lane + at_ * 256)))
      else s

/-- LANE_SPARE_DETECT: a lane has lost its signal, or its corrected symbols exceed SPTHR in the 1 ms window (R476). -/
def State.laneDetect (s : State) (k lane n : Nat) (lost : Bool) : State :=
  let p := s.port k
  let many := p.errWin == s.tb / 1000000 && decide (p.spthr < mget 0 p.laneErr lane)
  if lost ∨ many then s.laneFail k lane n else s

/-- LANESWAP_ARRIVAL: the peer's count, the later one when both ends have named one for the same lane (log entry 26); a second failing lane fails the port. -/
def State.laneswapIn (s : State) (k : Nat) (u : Urgent) (crc : BitVec 16) : State :=
  s.unitIn k 7 u crc fun s =>
    let p := s.port k
    let n := ubits u 8 32
    let lane := ubits u 0 4
    match p.swap with
    | some (m, other) =>
      if other = lane then s.setPort k { p with swap := some (if (n + 2 ^ 32 - m) % 2 ^ 32 < 2 ^ 31 then n else m, lane) } else s.portFail k 3 2
    | none => if p.lmap ≠ [] then s.portFail k 3 2 else s.setPort k { p with swap := some (n, lane) }

/-- LANE_SWAP: at the agreed count both ends hold, remap to LANE.8 and resume (R477). -/
def State.laneSwap (s : State) (k : Nat) : State :=
  let p := s.port k
  match p.swap with
  | some (_, lane) =>
    if p.holds then (s.setPort k { p with swap := none, spared := true, lmap := mset p.lmap lane 8 }).portRecord k lane 0x13 0 lane p.fecce else s
  | none => s

/-! ## Training and stopping (R479, R480, R578, R600, R601) -/

/-- Why training fails: DCAUSE, or 0. -/
def State.trainingCause (s : State) (k : Nat) (x : Training) : Nat :=
  let p := s.port k
  let topo := s.brg.topo.getD {}
  if 2 ≤ x.lanes.length then 3
  else if (if p.fec = 1 then !x.latency else if p.fec = 2 then !x.longOk else !x.latency && !x.longOk) then 2
  else if !x.verified then 7
  else if x.noQuote ∧ topo.pinned.contains k then 7
  else if !x.noQuote ∧ x.debug ∧ topo.field.contains k then 7
  else if topo.pinned.contains k ∧ !x.pinOk then 6
  else if x.peerChip = s.chipId ∧ s.chipId ≠ 4095 then 6
  else 0

/-- PORT_TRAINING_COMPLETE. -/
def State.trainingComplete (s : State) (k : Nat) (x : Training) : State :=
  let p := s.port k
  if p.fsm.st ≠ .starting then s
  else
    let cause := s.trainingCause k x
    let lmap : List (Nat × Nat) := x.lanes.map fun l => (l, 8)
    let q := { p.fresh with lmap := lmap.take 1, spared := decide (x.lanes.length = 1 ∧ !x.lanes.contains 8)
                            long := p.fec == 2 || (p.fec != 1 && !x.latency), delay := x.delay
                            peerV := cause == 0 || cause == 6, peerChip := x.peerChip, peerPort := x.peerPort
                            progAt := s.tb, rpAt := s.tb, lcAt := s.tb, delayAt := s.tb }
    if cause ≠ 0 then
      let s1 := (s.setPort k { q with fsm := p.fsm.startRefused, dcause := cause, miswired := p.miswired || cause == 6 }).portRecord k 0 0x14 2 cause 0
      if cause = 6 then s1.breakPort k 3 else s1
    else
      let s1 := s.setPort k { q with fsm := p.fsm.startOk, dcause := 0, miswired := false, stopAt := s.tb }
      if x.noQuote ∨ x.debug then s1.portRecord k 0 0x19 0 k (x.peerChip * 8 + x.peerPort) else s1

/-- PORT_ENABLE and PORT_DISABLE. -/
def State.portEnable (s : State) (k : Nat) (v : Bool) : State :=
  let p := s.port k
  if s.portPresent k then
    s.setPort k { p with fsm := p.fsm.write v, stopAt := if p.fsm.st = .on ∧ v = false then s.tb else p.stopAt }
  else s

/-- PORT_STOP_COMPLETE: the held cells are acknowledged, or 10 µs have passed and their streams fail (R479). -/
def State.portStop (s : State) (k : Nat) : State :=
  let p := s.port k
  if p.fsm.st = .stopping ∧ (p.held = [] ∨ p.stopAt + 10000 ≤ s.tb) then
    let s1 := if p.held = [] then s else s.portRecord k 0 0x14 2 1 p.recordSeq
    s1.portOff k p.fsm.stopDone 1 2 p.heldStreams
  else s

/-! ## The commands -/

/-- CELL_SEND (R466). -/
def execCellSend (k : Fin 8) (s : State) : Out := .next (s.cellSend k.val)
/-- CELL_RECEIVE (R467). -/
def execCellReceive (k : Fin 8) (x : RxCell) (words : List (List Nat)) (s : State) : Out := .next (s.cellReceive k.val x.cell words x.crc)
/-- REPLAY_UNIT_ARRIVAL (R467). -/
def execReplayUnitArrival (k : Fin 8) (u : RxUnit) (s : State) : Out := .next (s.replayUnit k.val u.unit u.crc)
/-- REPLAY_TIMEOUT (R467). -/
def execReplayTimeout (k : Fin 8) (s : State) : Out := .next (s.replayTimeout k.val)
/-- LCREDIT_ARRIVAL (R468). -/
def execLcreditArrival (k : Fin 8) (u : RxUnit) (s : State) : Out := .next (s.lcreditIn k.val u.unit u.crc)
/-- LCREDIT_SEND (R468). -/
def execLcreditSend (k : Fin 8) (s : State) : Out := .next (s.lcreditSend k.val)
/-- URGENT_UNIT_SEND: a unit that becomes ready while a cell is on the wire follows that cell (R471, R493). -/
def execUrgentUnitSend (k : Fin 8) (onWire : Bool) (s : State) : Out := .next (if onWire then s else s.urgentSend k.val)
/-- CCREDIT_ARRIVAL (R473). -/
def execCcreditArrival (k : Fin 8) (u : RxUnit) (s : State) : Out := .next (s.ccreditIn k.val u.unit u.crc)
/-- CHIPDOWN_ARRIVAL (R630). -/
def execChipdownArrival (k : Fin 8) (u : RxUnit) (s : State) : Out := .next (s.chipdownIn k.val u.unit u.crc)
/-- LANE_SPARE_DETECT (R476). -/
def execLaneSpareDetect (k : Fin 8) (lane : Fin 9) (x : LaneFault) (s : State) : Out := .next (s.laneDetect k.val lane.val x.at_ x.lost)
/-- LANESWAP_ARRIVAL (R476). -/
def execLaneswapArrival (k : Fin 8) (u : RxUnit) (s : State) : Out := .next (s.laneswapIn k.val u.unit u.crc)
/-- LANE_SWAP (R477). -/
def execLaneSwap (k : Fin 8) (s : State) : Out := .next (s.laneSwap k.val)
/-- PORT_ACK_TIMEOUT (R470). -/
def execPortAckTimeout (k : Fin 8) (s : State) : Out := .next (s.portAckTimeout k.val)
/-- PORT_ENABLE (R479). -/
def execPortEnable (k : Fin 8) (s : State) : Out := .next (s.portEnable k.val true)
/-- PORT_DISABLE (R479). -/
def execPortDisable (k : Fin 8) (s : State) : Out := .next (s.portEnable k.val false)
/-- PORT_TRAINING_COMPLETE (R479). -/
def execPortTrainingComplete (k : Fin 8) (x : Training) (s : State) : Out := .next (s.trainingComplete k.val x)
/-- PORT_STOP_COMPLETE (R479). -/
def execPortStopComplete (k : Fin 8) (s : State) : Out := .next (s.portStop k.val)

end Sys2Proof.Machine
end

