-- ==== Sys2Proof/Machine/Time.lean ====
section
/-! DEFINITION. System time and barrier lines across chips (spec 15 R486 to R493; 10 R343 to R347). -/

namespace Sys2Proof.Machine

/-! ## Beacons and link delay (R486 to R490) -/

/-- The body of a BEACON unit without its stamp. -/
def State.beaconBody (s : State) : BitVec 96 :=
  BitVec.ofNat 96 (s.tbr.depth % 16 * 2 ^ 80 + (if s.tbr.root then s.chipId else s.tbr.rootId) % 4096 * 2 ^ 84)

/-- BEACON_EMIT: once for each multiple of 1,000 ticks that the TB has crossed (R487). -/
def State.beaconEmit (s : State) : State :=
  if s.tbr.beats < s.tb / 1000 then
    { s with tbr := { s.tbr with beats := s.tb / 1000 } }.urgent (fun _ => true) 2 s.beaconBody
  else s

/-- Moving the fraction; a whole tick gained or lost is asked of the next tick, one at most in any 1,000, and what the limit does not allow is not gained (R489). -/
def Tbr.adjust (t : Tbr) (tb : Nat) (d : Int) : Tbr :=
  let f : Int := t.frac + max (-65535) (min 65535 d)
  let free := t.slew == 0 && (t.slewAt == 0 || decide (t.slewAt + 1000 ≤ tb))
  if f < 0 then (if free then { t with frac := (f + 65536).toNat, slew := -1 } else { t with frac := 0 })
  else if 65536 ≤ f then (if free then { t with frac := (f - 65536).toNat, slew := 1 } else { t with frac := 65535 })
  else { t with frac := f.toNat }

/-- A frequency or a rate within ±1,000 ppm, in 2^-16 tick a tick. -/
def ppm (x : Int) : Int := max (-65) (min 65 x)

/-- The servo, of phase and frequency (R489). -/
def Tbr.steer (t : Tbr) (tb : Nat) : Tbr :=
  let x := Config.servo t.offset t.freq tb
  { t with freq := ppm x.2 }.adjust tb x.1

/-- One tick of the learned frequency, and of the way to a TB_SYNC edge (R490, R492). -/
def Tbr.drift (t : Tbr) (tb : Nat) : Tbr :=
  let r : Int := min t.toGo.natAbs (1 + Config.syncRate t.toGo t.interval % 65)
  let step := if t.toGo < 0 then -r else r
  if t.freq = 0 ∧ t.toGo = 0 then t else { t with toGo := t.toGo - step }.adjust tb (t.freq + step)

/-- The lock state after a beacon whose offset is within 1/4 tick or not (R490). -/
def Tbr.lock (t : Tbr) (near : Bool) : Tbr :=
  let good := if near then t.good + 1 else 0
  let from_ := if t.state = 0 ∨ t.state = 3 then 1 else t.state
  { t with good := good, state := if 16 ≤ good then 2 else if from_ = 2 ∧ near then 2 else 1 }

/-- The offset that a beacon shows, in 2^-16 tick (R489). -/
def State.beaconOffset (s : State) (k : Nat) (u : Urgent) : Int :=
  (((ubits u 0 64 * 65536 + ubits u 64 16 + (s.port k).delay * 1024 : Nat) : Int) - ((s.tb * 65536 + s.tbr.frac : Nat) : Int))

/-- A beacon on UP (R489, R490). -/
def State.beaconUp (s : State) (k : Nat) (u : Urgent) : State :=
  let off := s.beaconOffset k u
  let t : Tbr := { s.tbr with depth := (ubits u 80 4 + 1) % 16, rootId := ubits u 84 12, offset := off }
  if t.state = 0 ∧ s.job.started = false then
    let now := ubits u 0 64 * 65536 + ubits u 64 16 + (s.port k).delay * 1024
    let tb := now / 65536 % 2 ^ 64
    { s with tb := tb, tbr := { t with state := 1, good := 0, lastAt := tb, beats := tb / 1000, frac := now % 65536, slew := 0 } }
  else
    { s with tbr := ({ t with lastAt := s.tb }.lock (decide (-16384 ≤ off ∧ off ≤ 16384))).steer s.tb }

/-- BEACON_ARRIVAL: on UP it steers; elsewhere a difference of more than 2 ticks is recorded (R487). -/
def State.beaconIn (s : State) (k : Nat) (u : Urgent) (crc : BitVec 16) : State :=
  s.unitIn k 2 u crc fun s =>
    if s.tbr.upv ∧ s.tbr.up = k ∧ s.tbr.root = false then s.beaconUp k u
    else
      let off := s.beaconOffset k u
      if 131072 < off ∨ off < -131072 then s.mcRecord 0x15 0 0 (natOfInt 48 off) else s

/-- DELAY_MEASURE: a request, stamped as it leaves, 1 ms after the measurement before (R488). -/
def State.delayMeasure (s : State) (k : Nat) : State :=
  let p := s.port k
  if p.fsm.st = .on ∧ p.delayAt + 1000000 ≤ s.tb then s.setPort k ({ p with delayAt := s.tb }.ready 8 0) else s

/-- DELAY_UNIT_ARRIVAL: a request is answered; a response gives half of the round trip less the peer's turnaround, in 1/64 tick (R488). -/
def State.delayIn (s : State) (k : Nat) (u : Urgent) (crc : BitVec 16) (wait : Nat) : State :=
  s.unitIn k 8 u crc fun s =>
    let p := s.port k
    if ubits u 80 1 = 0 then s.setPort k (p.ready 8 (BitVec.ofNat 96 (2 ^ 80)))
    else match p.asking with
      | some t0 => s.setPort k { p with asking := none, delay := ((s.tb * 65536 + s.tbr.frac - t0) / 1024 - wait) / 2 }
      | none => s

/-- HOLDOVER_ENTRY: three consecutive beacons have been missed (R490). -/
def State.holdoverEntry (s : State) : State :=
  let t := s.tbr
  if t.upv ∧ t.root = false ∧ (t.state = 1 ∨ t.state = 2) ∧ (t.lastAt + 3000 ≤ s.tb ∨ !(s.port t.up).up) then s.holdover else s

/-- HOLDOVER_TIMEOUT: after 1 ms (R490). -/
def State.holdoverTimeout (s : State) : State :=
  if s.tbr.state = 3 ∧ s.tbr.holdAt + 1000000 ≤ s.tb then
    { s with tbr := { s.tbr with state := 0, good := 0, freq := 0 } }.timeRecord 2 2
  else s

/-! ## TB_SYNC (R492) -/

/-- The distance from a TB with its fraction to the nearest multiple of an interval, in 2^-16 tick. -/
def syncOffset (interval tb frac : Nat) : Int :=
  let n := 65536 * interval
  let r := (65536 * tb + frac) % n
  if 2 * r ≤ n then -(r : Int) else (n : Int) - r

/-- TB_SYNC_EDGE: a load that STEPARM has armed, or the way that the TB is slewed from here, until the edges fall on multiples of INTERVAL. -/
def State.syncEdge (s : State) : State :=
  let t := s.tbr
  if !t.root ∨ !t.syncEn then s
  else if t.steparm ∧ s.job.started = false then
    { s with tb := t.syncset.toNat, tbr := { t with steparm := false, edgeAt := t.syncset.toNat, beats := t.syncset.toNat / 1000, frac := 0, slew := 0, toGo := 0 } }
  else if t.interval = 0 then { s with tbr := { t with edgeAt := s.tb } }
  else let off := syncOffset t.interval s.tb t.frac; { s with tbr := { t with edgeAt := s.tb, offset := off, toGo := off } }

/-- TB_SYNC_LOST: three intervals without an edge. -/
def State.syncLost (s : State) : State :=
  let t := s.tbr
  if t.root ∧ t.syncEn ∧ t.edgeAt + 3 * t.interval ≤ s.tb then
    { s with tbr := { t with lost := true, edgeAt := s.tb } }.timeRecord 0 3
  else s

/-- A write of TB.SYNC: after a job has started STEPARM = 1 is refused (R492). -/
def State.syncWrite (s : State) (v : Word) : State :=
  let arm := bit v 62
  let t : Tbr := { s.tbr with syncEn := bit v 63, toGo := if bit v 63 then s.tbr.toGo else 0, interval := fld v 0 32, edgeAt := if bit v 63 ∧ s.tbr.syncEn = false then s.tb else s.tbr.edgeAt }
  { s with tbr := if arm ∧ s.job.started then { t with serr := true } else { t with steparm := arm } }

/-- A write of TB.CTL: one with ROOT and UPV both 1 is ignored; the root is LOCKED at once (R486, R490). -/
def State.roleWrite (s : State) (v : Word) : State :=
  let root := bit v 5
  if root ∧ bit v 4 then s
  else
    let t : Tbr := { s.tbr with root := root, upv := bit v 4, up := fld v 0 3 }
    { s with tbr := if root then { t with state := 2, depth := 0, rootId := s.chipId, freq := 0 } else if s.tbr.root then { t with state := 0, good := 0, toGo := 0 } else t }

/-! ## Barrier lines (R343 to R347) -/

/-- Cores of the die that participate in line n. -/
def State.joiners (s : State) (n : Nat) : List Nat := (s.cores.filter fun p => p.2.part.getLsbD n).map Prod.fst

/-- The die has arrived on line n (R344); a broken line stays as it is (log entry 27). -/
def State.dieArrived (s : State) (n : Nat) : Bool :=
  let x := s.line n
  let js := s.joiners n
  let own := !x.isLocal || js.all fun l => (s.coreAt l).arrive.getLsbD n
  let counts := (x.isLocal && js != []) || x.down != 0
  !x.brk && own && counts && decide (x.got &&& x.down = x.down)

/-- A participant sees completion (R340). -/
def Core.lineDone (c : Core) (n : Nat) : Core :=
  { c with arrive := c.arrive &&& ~~~(BitVec.ofNat 8 (2 ^ n)), bgen := mupd 0 c.bgen n (· + 1) }

/-- The line completes on this die, and COMPLETE goes down (R344). -/
def State.lineComplete (s : State) (n : Nat) : State :=
  let x := s.line n
  let s1 := s.urgent (fun k => x.down.getLsbD k) 1 (barrierBody n false true false x.parity)
  let s2 := if x.isLocal then { s1 with cores := s1.cores.map fun p => (p.1, if p.2.part.getLsbD n then p.2.lineDone n else p.2) } else s1
  s2.setLine n { x with got := 0, sent := false, parity := !x.parity }

/-- BARRIER_DIE_ARRIVED: the root completes; another die sends ARRIVE on UP, once a generation (R344). -/
def State.barrierArrived (s : State) (n : Nat) : State :=
  let x := s.line n
  if !s.dieArrived n then s
  else if x.root then s.lineComplete n
  else if x.upv ∧ x.sent = false then
    (s.setLine n { x with sent := true }).urgent (fun k => k == x.up) 1 (barrierBody n true false false x.parity)
  else s

/-- One line's events of a BARRIER unit that came in on port k. -/
def State.lineEvents (s : State) (k : Nat) (u : Urgent) (n : Nat) : State :=
  let x := s.line n
  let arrive := ubits u (4 * n + 3) 1 == 1
  let complete := ubits u (4 * n + 2) 1 == 1
  let broken := ubits u (4 * n + 1) 1 == 1
  let now := (ubits u (4 * n) 1 == 1) == x.parity
  let s1 := if arrive && now && x.down.getLsbD k then s.setLine n { x with got := x.got ||| BitVec.ofNat 8 (2 ^ k) } else s
  let s2 := if complete && now && x.upv && x.up == k && !x.brk then s1.lineComplete n else s1
  if broken && x.names k then s2.breakLine n 5 k (some k) else s2

/-- BARRIER_UNIT_ARRIVAL (R473). -/
def State.barrierIn (s : State) (k : Nat) (u : Urgent) (crc : BitVec 16) : State :=
  s.unitIn k 1 u crc fun s => (List.range 8).foldl (fun s n => s.lineEvents k u n) s

/-- A write of BLX.n is ignored as a whole (R343). -/
def State.blxIgnored (s : State) (n : Nat) (v : Word) : Bool :=
  let loc := bit v 23
  let root := bit v 22
  let upv := bit v 21
  let up := fld v 18 3
  let down := fld v 8 8
  (s.cores.any fun p => p.2.arrive.getLsbD n) || (root && upv) || (!root && !upv && (loc || down != 0)) || (upv && inMask down up)
    || (upv && !s.portPresent up) || (List.range 8).any fun k => inMask down k && !s.portPresent k

/-- BLX_WRITE: a role that is not ignored begins its generation anew (log entry 27). -/
def State.blxWrite (s : State) (n : Nat) (v : Word) : State :=
  if s.blxIgnored n v then s
  else
    let x := s.line n
    s.setLine n { x with isLocal := bit v 23, root := bit v 22, upv := bit v 21, up := fld v 18 3, down := BitVec.ofNat 8 (fld v 8 8)
                         brk := x.brk && !bit v 0, got := 0, sent := false, parity := false }

/-- BLX.n as it reads. -/
def Blx.word (x : Blx) : Word :=
  pack [(b2n x.isLocal, 23, 1), (b2n x.root, 22, 1), (b2n x.upv, 21, 1), (x.up, 18, 3), (x.down.toNat, 8, 8), (b2n x.brk, 0, 1)]

/-- BLX_BRK_CLEAR: the loader writes the role back with BRK = 1; queues report a later break of the line again (R336, R347). -/
def State.blxBrkClear (s : State) (n : Nat) : State :=
  let x := s.line n
  if s.blxIgnored n x.word then s
  else
    let s1 := s.blxWrite n (x.word ||| 1)
    { s1 with cores := s1.cores.map fun p => (p.1, p.2.forgetTold fun i => i == 48 + n) }

/-! ## The commands -/

/-- BEACON_EMIT (R487). -/
def execBeaconEmit (s : State) : Out := .next s.beaconEmit
/-- BEACON_ARRIVAL (R489). -/
def execBeaconArrival (k : Fin 8) (u : Urgent) (crc : BitVec 16) (s : State) : Out := .next (s.beaconIn k.val u crc)
/-- DELAY_MEASURE (R488). -/
def execDelayMeasure (k : Fin 8) (s : State) : Out := .next (s.delayMeasure k.val)
/-- DELAY_UNIT_ARRIVAL (R488). -/
def execDelayUnitArrival (k : Fin 8) (u : Urgent) (crc : BitVec 16) (wait : Nat) (s : State) : Out := .next (s.delayIn k.val u crc wait)
/-- HOLDOVER_ENTRY (R490). -/
def execHoldoverEntry (s : State) : Out := .next s.holdoverEntry
/-- HOLDOVER_TIMEOUT (R490). -/
def execHoldoverTimeout (s : State) : Out := .next s.holdoverTimeout
/-- TB_SYNC_EDGE (R492). -/
def execTbSyncEdge (s : State) : Out := .next s.syncEdge
/-- TB_SYNC_LOST (R492). -/
def execTbSyncLost (s : State) : Out := .next s.syncLost
/-- TB_STEPARM_WRITE: a write of TB.SYNC (R492). -/
def execTbSteparmWrite (v : Word) (s : State) : Out := .next (s.syncWrite v)
/-- TB_ROLE_WRITE: a write of TB.CTL (R486). -/
def execTbRoleWrite (v : Word) (s : State) : Out := .next (s.roleWrite v)
/-- BARRIER_DIE_ARRIVED (R344). -/
def execBarrierDieArrived (n : Fin 8) (s : State) : Out := .next (s.barrierArrived n.val)
/-- BARRIER_UNIT_ARRIVAL (R473). -/
def execBarrierUnitArrival (k : Fin 8) (u : RxUnit) (s : State) : Out := .next (s.barrierIn k.val u.unit u.crc)
/-- BLX_WRITE (R343). -/
def execBlxWrite (n : Fin 8) (v : Word) (s : State) : Out := .next (s.blxWrite n.val v)
/-- BLX_BRK_CLEAR (R347). -/
def execBlxBrkClear (n : Fin 8) (s : State) : Out := .next (s.blxBrkClear n.val)

end Sys2Proof.Machine
end

