-- ==== Sys2Proof/Machine/Host.lean ====
section
/-! DEFINITION. The host interface: MSI-X, the rings, the error log, job state, the end of a job, fatal errors, the host window, doorbells and the apertures (spec 18 R536 to R549, R553; 13 R431, R432; 22 R629, R634 to R639). -/

namespace Sys2Proof.Machine

/-! ## MSI-X, state changes and completions (R545, R548, R549) -/

def State.setHif (s : State) (h : Hif) : State := { s with hif := h }

/-- Sending to the host. -/
def Hif.send (h : Hif) (m : HostMsg) : Hif := { h with out := h.out ++ [m] }

/-- Raising a vector; it stays pending while the function's MSI-X or its bus mastering is off. -/
def Hif.msix (h : Hif) (v : Nat) : Hif :=
  if h.msixEn ∧ h.bme then h.send (.msix v) else { h with msixPba := if h.msixPba.contains v then h.msixPba else h.msixPba ++ [v] }
def State.msix (s : State) (v : Nat) : State := s.setHif (s.hif.msix v)

/-- Entries in use of a ring that the MC or the host fills. -/
def HRing.used (q : HRing) : Nat := (q.tail + 2 ^ q.log2n - q.head) % 2 ^ q.log2n

/-- A ring with no free entry: one entry stays unused, since HEAD = TAIL is empty (log entry 28). -/
def HRing.full (q : HRing) : Bool := decide (2 ^ q.log2n ≤ q.used + 1)

/-- The host address of an entry. -/
def HRing.at (q : HRing) (i size : Nat) : Word := q.base + BitVec.ofNat 64 (size * i)

/-- After an entry has been written at TAIL. -/
def HRing.wrote (q : HRing) : HRing :=
  let t := (q.tail + 1) % 2 ^ q.log2n
  { q with tail := t, phase := if t = 0 then !q.phase else q.phase }

/-- Writing the oldest completions that can be written: the ring is in use, has room, and bus mastering is on (R538, R548). -/
def Hif.flushOwed (h : Hif) : Nat → Hif
  | 0 => h
  | k + 1 =>
    match h.owed with
    | [] => h
    | (tag, op, status, res) :: rest =>
      if h.bme ∧ h.cplq.en ∧ !h.cplq.full then
        let w0 := pack [(tag, 0, 16), (op, 16, 8), (status, 24, 8), (b2n h.cplq.phase, 32, 1)]
        Hif.flushOwed ((({ h with owed := rest, cplq := h.cplq.wrote }).send
          (.write (h.cplq.at h.cplq.tail 16) (leBytes 8 w0.toNat ++ leBytes 8 res.toNat))).msix 0) k
      else h

/-- A command completes. -/
def State.complete (s : State) (tag op status : Nat) (res : Word) : State :=
  let h := { s.hif with owed := s.hif.owed ++ [(tag, op, status, res)] }
  s.setHif (h.flushOwed h.owed.length)

/-- A state sensor has changed: firmware that runs sends the board an event (Table 23-4). -/
def State.sensorEvent (s : State) (n v : Nat) : State :=
  if 3 ≤ s.brg.phase ∧ s.mc.fatal = false then s.setHif (s.hif.send (.sideband (Config.sensorEvent n v))) else s

/-- DEV changes (R545). -/
def State.setDev (s : State) (d : Nat) : State := if s.hif.dev = d then s else (({ s with hif := { s.hif with dev := d } }).msix 2).sensorEvent 0 d

/-- When the job that ran has ended, doubled refresh follows the temperatures again (R449). -/
def State.afterJob (s : State) (was : Nat) : State := if was = 3 then s.coolStacks else s

/-- JOB changes: vector 2 and a record of class job (R545, R549). -/
def State.setJob (s : State) (j : Nat) : State :=
  if s.hif.job = j then s
  else (((({ s with hif := { s.hif with job := j } } : State)).msix 2).mcRecord 0x1A 0 j s.hif.exit.toNat).afterJob s.hif.job

/-! ## The log ring and the event ring (R634, R635, R638, R639, R549) -/

/-- A record's 32 bytes (Table 22-6). -/
def Rec.bytes (x : Rec) : List Byte :=
  leBytes 8 x.tb
    ++ leBytes 8 (pack [(x.r.cls, 56, 8), (x.r.sev, 52, 4), (x.r.ukind, 48, 4), (x.r.lunit, 36, 12), (x.r.punit, 16, 16)]).toNat
    ++ leBytes 8 (pack [(x.r.key, 48, 16), (x.r.detail, 0, 48)]).toNat
    ++ leBytes 8 (pack [(x.rep, 32, 32), (x.lost, 16, 16), (x.chip, 0, 12)]).toNat

/-- A record enters the log ring: the newest 4,096 stay, and one overwritten before it was mirrored counts in EVQ.LOST (R639). -/
def State.logWrite (s : State) (x : Rec) : State :=
  let log := s.mc.log ++ [x]
  let total := s.mc.total + 1
  let full := decide (4096 < log.length)
  let missed := full && decide (s.mc.mirrored < total - 4096)
  { s with mc := { s.mc with log := if full then log.drop 1 else log, total := total, mirrored := if missed then s.mc.mirrored + 1 else s.mc.mirrored }
           hif := if missed then { s.hif with evlost := s.hif.evlost + 1, evunrep := s.hif.evunrep + 1 } else s.hif }

/-- The oldest record that has not been mirrored. -/
def Mc.next (m : Mc) : Option Rec := if m.mirrored < m.total then m.log[m.log.length - (m.total - m.mirrored)]? else none

/-- LOG_MIRROR: to the event ring, or lost when the ring is full; none while bus mastering is off or the ring is not in use (R538, R549, R639). -/
def State.mirror (s : State) : State :=
  match s.mc.next with
  | none => s
  | some x =>
    let h := s.hif
    if h.bme ∧ h.evq.en then
      let mc := { s.mc with mirrored := s.mc.mirrored + 1 }
      if h.evq.full then { s with mc := mc, hif := { h with evlost := h.evlost + 1, evunrep := h.evunrep + 1 } }
      else
        let y := { x with lost := min 65535 (x.lost + h.evunrep) }
        { s with mc := mc, hif := (({ h with evq := h.evq.wrote, evunrep := 0 }).send (.write (h.evq.at h.evq.tail 32) y.bytes)).msix 1 }
    else s

/-! ## The conditions of R408 -/

/-- A router beside the Col sends a stream across it. -/
def Router.crosses (r : Router) (n : Nat) : Bool :=
  decide (n < 3456) && r.stab.any fun q => stabV q.2 && ((n % 72 == 35 && inMask (stabOut q.2) 1) || (n % 72 == 36 && inMask (stabOut q.2) 3))

/-- A channel endpoint that is OPEN or OPENING. -/
def EnFsm.live (f : EnFsm) : Bool := f.st == .on || f.st == .starting

/-- The peer of an endpoint is a core of this chip in a half. -/
def State.peerIn (s : State) (east : Bool) (chip lcid : Nat) : Bool := (chip == s.chipId || chip == 4095) && clEast (lcCluster lcid) == east

/-- The first condition of R408 that forbids a half to be off; 0 for none. -/
def State.halfCause (s : State) (east : Bool) : Nat :=
  let inHalf (l : Nat) : Bool := clEast (lcCluster l) == east
  if s.routers.any fun p => p.2.crosses p.1 then 1
  else if s.cores.any fun p => inHalf p.1 && p.2.part != 0 then 2
  else if s.blx.any fun p => (List.range 8).any fun k => p.2.names k && portEast k == east then 3
  else if s.regions.any fun p => p.2.inForce && (s.covered p.2).any fun h => siteEast h == east then 4
  else if s.cores.any fun p => !inHalf p.1 &&
      (p.2.cho.any (fun x => x.2.fsm.live && s.peerIn east x.2.dchip x.2.dlcid)
        || p.2.chi.any fun x => x.2.fsm.live && (match x.2.peer with | some q => s.peerIn east q.chip q.lcid | none => false)) then 5
  else 0

/-! ## Requests for halves, which loads and they wait for each other (R410, R623, R624) -/

def State.setHalf (s : State) (east : Bool) (h : Half) : State :=
  { s with pwr := if east then { s.pwr with e := h } else { s.pwr with w := h } }
def State.halfAsked (s : State) (east : Bool) : Bool := if east then s.pwr.eoff else s.pwr.woff
def State.askHalf (s : State) (east off : Bool) : State :=
  { s with pwr := if east then { s.pwr with eoff := off } else { s.pwr with woff := off } }

/-- Why an off request is refused: RCAUSE, or 0. -/
def State.offRefused (s : State) (east : Bool) : Nat :=
  if s.pwr.busy ∨ !(s.half (!east)).on then 6 else s.halfCause east

/-- A request for a half off is taken up: refused, or BUSY with the drain begun. -/
def State.halfOffNow (s : State) (east : Bool) : State :=
  let cause := s.offRefused east
  let s1 := { s with pwr := { s.pwr with rcause := cause } }
  if cause ≠ 0 then s1
  else (({ s1 with pwr := { s1.pwr with busy := true } } : State).setHalf east { s1.half east with drain := some s1.tb }).askHalf east true

/-- A request for a half on is taken up: the regulator's enable, and BUSY; nothing while a request is in progress. -/
def State.halfOnNow (s : State) (east : Bool) : State :=
  if s.pwr.busy then s
  else (({ s with pwr := { s.pwr with busy := true, rcause := 0 } } : State).setHalf east { s.half east with vren := true }).askHalf east false

/-- A write of a half's bit of PWR.HREQ that changes it; during a load the MC takes it up when the load has ended (R410). -/
def State.halfRequest (s : State) (east off : Bool) : State :=
  if s.dead ∨ s.halfAsked east = off then s
  else if s.hif.job = 1 then ({ s with pwr := { s.pwr with waits := s.pwr.waits ++ [(east, off)] } } : State).askHalf east off
  else if off then s.halfOffNow east else s.halfOnNow east
def State.halfOff (s : State) (east : Bool) : State := s.halfRequest east true
def State.halfOn (s : State) (east : Bool) : State := s.halfRequest east false

/-- The load has ended: the requests that waited for it, in order. -/
def State.resumeHalves (s : State) : State :=
  s.pwr.waits.foldl (fun t x => let u := t.askHalf x.1 (!x.2); if x.2 then u.halfOffNow x.1 else u.halfOnNow x.1) { s with pwr := { s.pwr with waits := [] } }

/-! ## The end of a job, and fatal errors (R553, R629) -/

/-- Every router stops. -/
def State.stopRouters (s : State) : State := s.routers.foldl (fun s p => s.routerEnable p.1 false) s

/-- The CC's notice of a job stop to every thread (Table 4-2). -/
def State.notifyAll (s : State) : State := s.cores.foldl (fun s p => s.setCore p.1 (ccNotice (s.env p.1) (s.coreAt p.1))) s

/-- Every core parks. -/
def State.parkAll (s : State) : State := s.cores.foldl (fun s p => s.setCore p.1 (corePark (s.env p.1) (s.coreAt p.1))) s

/-- A LOAD or START in progress completes with status 9 (Table 18-11). -/
def State.cutShort (s : State) : State :=
  let s1 := if s.hif.job = 1 then (({ s with job := { s.job with opening := [] } }).complete s.job.loadTag 1 9 0).resumeHalves else s
  match s1.job.start with
  | some (tag, _) => ({ s1 with job := { s1.job with start := none } }).complete tag 2 9 0
  | none => s1

/-- The job ends with an exit code (R553). -/
def State.endJob (s : State) (exit : BitVec 32) : State :=
  if s.hif.job = 1 ∨ s.hif.job = 2 ∨ s.hif.job = 3 then
    let s1 := ({ s with hif := { s.hif with exit := exit } }).cutShort
    (s1.notifyAll.parkAll.stopRouters).setJob 4
  else s

/-- A fatal error: KEY 0 lockstep, 1 MC SRAM, 2 spine, 3 thermal trip (R629). The record goes to the log ring, and on to the event ring when the MC still runs; a power request that waits for a load is not taken up. -/
def State.fatal (s : State) (key detail : Nat) : State :=
  if s.hif.dev = 3 then s
  else
    let inMc := decide (key = 0 ∨ key = 1)
    let r : ErrRec := { cls := 0x1F, sev := 3, ukind := 7, key := key, detail := detail }
    let s1 := ({ s with pwr := { s.pwr with waits := [] } } : State).endJob 0xFFFFFFFF
    let s2 := s1.setDev 3
    let s3 := s2.logWrite { tb := s.tb, r := r, chip := s.chipId }
    let s4 := (s3.urgent (fun _ => true) 6 (BitVec.ofNat 96 s.chipId)).msix 1
    { s4 with mc := { s4.mc with fatal := inMc } }

/-! ## The command ring (R546, R547, Table 18-6) -/

def HCmd.word (c : HCmd) (i : Nat) : Word := c.words.getD i 0
def HCmd.op (c : HCmd) : Nat := fld (c.word 0) 0 8
def HCmd.tag (c : HCmd) : Nat := fld (c.word 0) 16 16

/-- Commands that have been fetched, or started, and not completed. -/
def State.outstanding (s : State) : Nat :=
  s.hif.cmds.length + s.hif.owed.length + s.hif.clearTags.length + s.hif.warmTags.length + b2n (s.hif.job == 1) + b2n s.job.start.isSome

/-- A command other than QUERY, STOP and RESET is in progress. -/
def State.running (s : State) : Bool := s.hif.job == 1 || s.job.start.isSome || s.hif.clearTags != [] || s.hif.warmTags != []

/-- The MC fetches commands: not before phase 2 has ended, nor after a failed bring-up or a failure of the MC (R563, R629, Table 19-7). -/
def State.fetches (s : State) : Bool :=
  s.hif.bme && s.hif.cmdq.en && s.hif.cplq.en && !s.mc.fatal && s.brg.fcause == 0 && decide (3 ≤ s.brg.phase)
    && s.hif.cmdq.head != s.hif.cmdq.tail && decide (s.hif.cplq.used + s.outstanding + 1 < 2 ^ s.hif.cplq.log2n)

/-- CMD_FETCH: a command with an unknown OP is refused at once (R546, Table 18-6). -/
def State.cmdFetch (s : State) (x : HCmd) : State :=
  if s.fetches then
    let q := s.hif.cmdq
    let s1 := s.setHif { s.hif with cmdq := { q with head := (q.head + 1) % 2 ^ q.log2n } }
    if 1 ≤ x.op ∧ x.op ≤ 7 then s1.setHif { s1.hif with cmds := s1.hif.cmds ++ [x] } else s1.complete x.tag x.op 1 0
  else s

/-- Removing the first command of an OP. -/
def dropCmd (op : Nat) : List HCmd → List HCmd
  | [] => []
  | c :: r => if c.op = op then r else c :: dropCmd op r

/-- Words that a command leaves reserved are zero (R546, Table 18-6). -/
def HCmd.plain (c : HCmd) (n : Nat) : Bool :=
  decide (fld (c.word 0) 8 8 = 0 ∧ fld (c.word 0) 32 32 = 0) && (List.range 8).all fun i => decide (i ≤ n) || c.word i == 0

/-- The command that the MC may start now: QUERY, STOP and RESET as soon as they are fetched, the others in ring order after the one before has completed (R547). -/
def State.takeCmd (s : State) (op : Nat) : Option (HCmd × State) :=
  let s1 := s.setHif { s.hif with cmds := dropCmd op s.hif.cmds }
  if op = 3 ∨ op = 4 ∨ op = 5 then (s.hif.cmds.find? fun c => c.op == op).map fun c => (c, s1)
  else match s.hif.cmds with
    | c :: _ => if c.op = op ∧ !s.running then some (c, s1) else none
    | [] => none

/-- HIF.STAT. -/
def State.hifStat (s : State) : Word := pack [(s.hif.dev, 8, 3), (s.hif.job, 4, 3)]

/-- CLUSTERS, STACKS and PORTS of the effective unit map (Table 19-3). -/
def UMap.units (u : UMap) : Word := pack [(u.clusters.toNat, 0, 48), (u.sites.toNat, 48, 6), (u.ports.toNat, 54, 8)]

/-- The reply of QUERY (Table 18-8). -/
def State.queryReply (s : State) : List Byte :=
  leBytes 8 s.hifStat.toNat ++ leBytes 8 s.hif.exit.toNat ++ leBytes 8 s.tb ++ leBytes 4 s.sec.fwver ++ leBytes 2 s.chipId ++ leBytes 2 s.brg.umap.devid
    ++ leBytes 32 s.brg.mapdig.toNat ++ leBytes 8 s.brg.umap.units.toNat ++ leBytes 16 s.fuses.serial.toNat ++ List.replicate 168 0

/-- QUERY. -/
def State.query (s : State) : State :=
  match s.takeCmd 4 with
  | none => s
  | some (c, s1) =>
    if !c.plain 1 then s1.complete c.tag 4 1 0
    else if s1.hif.dev = 0 then s1.complete c.tag 4 2 0
    else (s1.setHif (s1.hif.send (.write (c.word 1) s1.queryReply))).complete c.tag 4 0 0

/-- MAP (R543). -/
def State.map (s : State) : State :=
  match s.takeCmd 6 with
  | none => s
  | some (c, s1) =>
    let a := (c.word 1).toNat
    let n := (c.word 2).toNat
    let w := c.word 3
    if !c.plain 3 ∨ a % 4096 ≠ 0 ∨ n % 4096 ≠ 0 ∨ fld w 4 4 ≠ 0 ∨ fld w 10 54 ≠ 0 then s1.complete c.tag 6 1 0
    else if s1.hif.dev = 3 then s1.complete c.tag 6 2 0
    else
      let i := fld w 0 4
      let hwt := if n = 0 then mdel s1.hif.hwt i else mset s1.hif.hwt i { addr := a, len := n, read := bit w 8, write := bit w 9 }
      (s1.setHif { s1.hif with hwt := hwt }).complete c.tag 6 0 0

/-- STOP (R553, Table 18-11). -/
def State.stop (s : State) : State :=
  match s.takeCmd 3 with
  | none => s
  | some (c, s1) =>
    if !c.plain 0 then s1.complete c.tag 3 1 0
    else if s1.hif.dev = 0 ∨ s1.hif.dev = 3 ∨ (s1.hif.job ≠ 1 ∧ s1.hif.job ≠ 3) then s1.complete c.tag 3 2 0
    else let s2 := s1.endJob 1; s2.complete c.tag 3 0 (BitVec.ofNat 64 s2.hif.exit.toNat)

/-- A write of JOB.EXIT: the first non-zero code ends the job (R553, R655). -/
def State.jobExit (s : State) (v : Word) : State := if fld v 0 32 = 0 then s else s.endJob (BitVec.ofNat 32 (fld v 0 32))

/-! ## Doorbells (R432, R544) -/

/-- DOORBELL_WRITE: ignored outside JOB RUNNING and for an absent core. -/
def State.doorbell (s : State) (n : Nat) (v : Word) : State :=
  if s.hif.job = 3 ∧ s.present n then s.setHif { s.hif with bells := s.hif.bells ++ [(n, fld v 0 8)] } else s

/-- DOORBELL_DELIVERY: every host write received before it has been carried out (log entry 29). -/
def State.bellDelivery (s : State) : State :=
  match s.hif.bells with
  | [] => s
  | (n, m) :: rest =>
    if s.hif.bar.any fun q => !q.read && q.bells == 0 then s
    else
    let s1 := s.setHif { s.hif with bells := rest, bar := s.hif.bar.map fun q => { q with bells := q.bells - 1 } }
    s1.onLive' n fun e c => (List.range e.nthr).foldl (fun c t => if inMask m t then xswiRaise c t else c) c

/-! ## The host window (R431, R542) -/

/-- The window entry that an access lies in and that grants its direction. -/
def State.hwtGrants (s : State) (a n : Nat) (wr : Bool) : Bool :=
  s.hif.hwt.any fun p => decide (p.2.addr ≤ a ∧ a + n ≤ p.2.addr + p.2.len) && (if wr then p.2.write else p.2.read)

/-- Issuing a read to the host; its completion will acknowledge every write forwarded before it. -/
def Hif.issue (h : Hif) (a : Word) (n : Nat) (m : Option InMsg) : Hif :=
  { h with tag := h.tag + 1, flush := h.flush ++ [(h.tag, h.wins.length)]
           reads := match m with | some x => h.reads ++ [(h.tag, x)] | none => h.reads }.send (.read a n h.tag)

/-- A kind-3 access reaches the endpoint. -/
def State.hostAccess (s : State) (m : InMsg) : State :=
  let o := saOff m.addr
  let a := BitVec.ofNat 64 o
  if !s.hif.bme then s.answer m (.err 5)
  else match m.body with
    | .read _ n => if s.hwtGrants o n false then s.setHif (s.hif.issue a n (some m)) else s.answer m (.err 1)
    | .write _ d pz _ tag =>
      if !s.hwtGrants o d.length true then s.answer m (.err 1)
      else if pz ≠ [] ∨ tag = .poison then s.answer m (.err 4)
      else s.setHif ({ s.hif with wins := s.hif.wins ++ [m] }.send (.write a d))
    | _ => s.answer m (.err 1)

/-- HOST_WINDOW_FLUSH_READ: a read behind the writes that are not yet acknowledged. -/
def State.flushRead (s : State) : State :=
  match s.hif.wins.getLast? with
  | none => s
  | some m => if s.hif.bme then s.setHif (s.hif.issue (BitVec.ofNat 64 (saOff m.addr)) 1 none) else s

/-- Acknowledging writes. -/
def State.ackWins (s : State) (ms : List InMsg) : State := ms.foldl (fun s m => s.answer m .ack) s

/-- HOST_WINDOW_READ_COMPLETION: status 0 is success, any other Unsupported Request or Completer Abort; EP delivers POISON (R431, R542). -/
def State.readCompletion (s : State) (tag : Nat) (data : List Byte) (status : Nat) (ep : Bool) : State :=
  match s.hif.flush.find? (fun p => p.1 == tag) with
  | none => s
  | some (_, n) =>
    let h := s.hif
    let read := h.reads.find? fun p => p.1 == tag
    let h1 := { h with wins := h.wins.drop n, reads := h.reads.filter fun p => p.1 != tag
                       flush := (h.flush.filter fun p => p.1 != tag).map fun p => (p.1, p.2 - n) }
    let s1 := (s.setHif h1).ackWins (h.wins.take n)
    match read with
    | none => s1
    | some (_, m) =>
      if status ≠ 0 then s1.answer m (.err 9)
      else
        let want := match m.body with | .read _ k => k | _ => 0
        let d := (data ++ List.replicate want 0).take want
        let o := saOff m.addr % 8
        if ep then (s1.hostRecord 0x1B 1 4 (saOff m.addr)).answer m (.readResp d .poison (List.range ((o + want + 7) / 8)))
        else s1.answer m (.readResp d .raw [])

/-! ## The apertures (R540, R541) -/

/-- A refused read or write: Unsupported Request, reported through AER as non-fatal. -/
def State.refuseHost (s : State) (read : Bool) (a : Nat) : State :=
  let s1 := s.hostRecord 0x1B 2 1 a
  let h := if read then s1.hif.send (.cpl [] false true) else s1.hif
  s1.setHif (h.send .aer)

/-- The apertures are served: not while DEV is BOOTING or FAILED (R541, R561, R629). -/
def State.aperture (s : State) : Bool := s.hif.dev == 1 || s.hif.dev == 2

/-- The access to a core's scratchpad that a BAR4 offset names is refused (R541, R584). -/
def State.bar4Refused (s : State) (a n : Nat) : Bool :=
  let l := a / 524288
  !s.aperture || s.hif.job == 5 || decide (3072 ≤ l) || !s.present l || !(s.half (clEast (lcCluster l))).on
    || (s.cl (lcCluster l)).st == .off || (s.cl (lcCluster l)).st == .starting || decide ((s.env l).spadBytes < a % 524288 + n)

/-- A read or write of the HBM aperture through the endpoints of its channels: none while a refresh window or the mesh's share of slots holds one of them (R437, R448, R540). EP = 1 stores the marker on every 32-byte word that a write touches. -/
def State.bar2Do (s : State) (q : HostReq) (x : Ecc) : Option State :=
  match s.runsOf unitPcie q.addr q.len with
  | none => some (s.refuseHost q.read q.addr)
  | some rs =>
    if !s.aperture ∨ rs.any (fun r => (s.stk r.2.1).fsm.st ≠ .on) then some (s.refuseHost q.read q.addr)
    else if rs.any (fun r => s.inWindow r.2.1 || !s.slotFree r.2.1 (keyPc r.2.2.1) || s.meshFirst r.2.1 (keyPc r.2.2.1 / 2) r.2.2.1 r.2.2.2) then none
    else
      let s1 := rs.foldl (fun t r => (t.setStk r.2.1 ((t.stk r.2.1).slot (keyPc r.2.2.1) false))) s
      let s2 := match rs with | r :: _ => s1.parity r.2.1 (keyPc r.2.2.1) x | [] => s1
      if 2 ≤ x.par then some (s2.refuseHost q.read q.addr)
      else if q.read then
        let y := s2.readRuns q.addr x rs
        some (y.1.setHif (y.1.hif.send (.cpl y.2.1 (y.2.2 != []) false)))
      else some (s2.writeRuns q.addr q.data (if q.ep then List.range (q.len / 8 + 2) else []) x rs)

/-- A read or write of the scratchpad aperture: a read gives the value bits, an EMPTY word as zero; a write makes every word touched RAW, or POISON with EP = 1 (R541). -/
def State.bar4Do (s : State) (q : HostReq) : State :=
  if s.bar4Refused q.addr q.len then s.refuseHost q.read q.addr
  else
    let l := q.addr / 524288
    let o := q.addr % 524288
    let c := s.coreAt l
    if q.read then
      let d := (List.range q.len).map fun i => if c.spad.tagAt (o + i) = .empty then 0 else rdByte c.spad.bytes (o + i)
      s.setHif (s.hif.send (.cpl d (c.spad.poisonIn o q.len) false))
    else s.setCore l { c with spad := c.spad.wideWrite o q.data fun _ => q.ep }

/-- Carrying out the oldest accesses that can be (R432). -/
def State.hostRun (s : State) (x : Ecc) : Nat → State
  | 0 => s
  | k + 1 =>
    match s.hif.bar with
    | [] => s
    | q :: rest =>
      match (let s1 := s.setHif { s.hif with bar := rest }; if q.bar4 then some (s1.bar4Do q) else s1.bar2Do q x) with
      | none => s
      | some s1 => State.hostRun s1 {} k

/-- An access of the host arrives: it waits behind the ones before it (R432). -/
def State.hostPush (s : State) (q : HostReq) (x : Ecc) : State :=
  let s1 := s.setHif { s.hif with bar := s.hif.bar ++ [{ q with bells := s.hif.bells.length }] }
  if s.hif.bar = [] then s1.hostRun x 1 else s1

/-- HBM_ACCEPT, of the mesh or of the service network, whose endpoints the host's accesses pass too; a refresh window holds every request (R437, R448). -/
def State.hbmAccept (s : State) (h j : Nat) (mesh : Bool) (x : Ecc) : State :=
  if s.inWindow h then s
  else if mesh then s.meshAccept h j x
  else if s.svc.inbox.any (fun m => m.unit == unitOf s.chipId (unitHbm h j)) then s.svcAccept h j x
  else s.hostRun x s.hif.bar.length

/-! ## Host interface registers (R538, R545, Table 18-4) -/

/-- A write of a ring's CFG. -/
def HRing.cfg (q : HRing) (v : Word) : HRing :=
  let n := fld v 0 4
  if q.en then { q with en := bit v 63 }
  else if bit v 63 then (if 4 ≤ n ∧ n ≤ 12 then { q with en := true, log2n := n, head := 0, tail := 0, phase := true } else q)
  else { q with log2n := n }

/-- HOST_RING_ENABLE: a write of the CFG of ring r, 0 CMDQ, 1 CPLQ, 2 EVQ. -/
def State.ringCfg (s : State) (r : Nat) (v : Word) : State :=
  let h := s.hif
  let h1 := match r with
    | 0 => { h with cmdq := h.cmdq.cfg v }
    | 1 => { h with cplq := h.cplq.cfg v }
    | _ => { h with evq := h.evq.cfg v }
  s.setHif (h1.flushOwed h1.owed.length)

/-- MSIX_RAISE: vectors 3 to 63. -/
def State.msixRaise (s : State) (v : Word) : State :=
  (List.range 61).foldl (fun s i => if bit v (i + 3) then s.msix (i + 3) else s) s

/-- HOT_RESET: configuration space, Table 18-4 and the telemetry block; neither the chip nor the job (R538, Table 23-9). -/
def State.hotReset (s : State) : State :=
  { s with hif := { s.hif with exit := 0, cmdq := {}, cplq := {}, evq := {}, evlost := 0, evunrep := 0, bme := false, msixEn := false, msixPba := [], msixTab := [], bar := s.hif.bar.filter fun q => !q.read }
           tel := {} }

/-- The endpoint answers with Request Retry Status (R559, R561). -/
def State.retries (s : State) : Bool := decide (s.brg.phase ≤ 2) && !s.brg.pushing && s.hif.dev != 3

/-- CONFIG_REQUEST: a read, or a write of Bus Master Enable or the MSI-X enable; none in cold reset. -/
def State.configRequest (s : State) (bme msix : Option Bool) : State :=
  if s.brg.phase = 0 then s
  else if s.retries then s.setHif (s.hif.send (.cfg true 0 0))
  else
    let h := { s.hif with bme := bme.getD s.hif.bme, msixEn := msix.getD s.hif.msixEn }
    let h1 := h.send (.cfg false Config.vendorId (partDevid s.fuses.part))
    let h2 := if h1.bme ∧ h1.msixEn then (h1.msixPba.foldl (fun h v => h.msix v) { h1 with msixPba := [] }) else h1
    s.setHif (h2.flushOwed h2.owed.length)

/-! ## The commands -/

/-- HBM_ACCEPT (R437, R438). -/
def execHbmAccept (h : Fin 6) (j : Fin 16) (mesh : Bool) (x : Ecc) (s : State) : Out := .next (s.hbmAccept h.val j.val mesh x)
/-- CMD_FETCH (R546). -/
def execCmdFetch (x : HCmd) (s : State) : Out := .next (s.cmdFetch x)
/-- QUERY (R547). -/
def execQuery (s : State) : Out := .next s.query
/-- MAP (R543). -/
def execMap (s : State) : Out := .next s.map
/-- STOP (R553). -/
def execStop (s : State) : Out := .next s.stop
/-- JOB_EXIT_WRITE (R655). -/
def execJobExitWrite (v : Word) (s : State) : Out := .next (s.jobExit v)
/-- HOST_WINDOW_FLUSH_READ (R431). -/
def execHostWindowFlushRead (s : State) : Out := .next s.flushRead
/-- HOST_WINDOW_READ_COMPLETION (R431). -/
def execHostWindowReadCompletion (tag : Nat) (data : List Byte) (status : Nat) (ep : Bool) (s : State) : Out := .next (s.readCompletion tag data status ep)
/-- DOORBELL_WRITE (R544). -/
def execDoorbellWrite (n : CoreId) (v : Word) (s : State) : Out := .next (s.doorbell n.val v)
/-- DOORBELL_DELIVERY (R432). -/
def execDoorbellDelivery (s : State) : Out := .next s.bellDelivery
/-- HOT_RESET (R538). -/
def execHotReset (s : State) : Out := .next s.hotReset
/-- HOST_RING_ENABLE (R546). -/
def execHostRingEnable (r : Fin 3) (v : Word) (s : State) : Out := .next (s.ringCfg r.val v)
/-- HOST_BAR2_READ (R540). -/
def execHostBar2Read (a len : Nat) (x : Ecc) (s : State) : Out := .next (s.hostPush { bar4 := false, read := true, addr := a, len := len } x)
/-- HOST_BAR2_WRITE (R540). -/
def execHostBar2Write (a : Nat) (data : List Byte) (ep : Bool) (x : Ecc) (s : State) : Out := .next (s.hostPush { bar4 := false, read := false, addr := a, len := data.length, data := data, ep := ep } x)
/-- HOST_BAR4_READ (R541). -/
def execHostBar4Read (a len : Nat) (s : State) : Out := .next (s.hostPush { bar4 := true, read := true, addr := a, len := len } {})
/-- HOST_BAR4_WRITE (R541). -/
def execHostBar4Write (a : Nat) (data : List Byte) (ep : Bool) (s : State) : Out := .next (s.hostPush { bar4 := true, read := false, addr := a, len := data.length, data := data, ep := ep } {})
/-- MSIX_RAISE (R545). -/
def execMsixRaise (v : Word) (s : State) : Out := .next (s.msixRaise v)
/-- CONFIG_REQUEST (R561). -/
def execConfigRequest (bme msix : Option Bool) (s : State) : Out := .next (s.configRequest bme msix)
/-- LOG_MIRROR (R639). -/
def execLogMirror (s : State) : Out := .next s.mirror

end Sys2Proof.Machine
end

