-- ==== Sys2Proof/Machine/Boot.lean ====
section
/-! DEFINITION. Resets, bring-up, the field map and the unit map, sparing, measured boot's registers, clusters (spec 19 R557 to R585; 20 R587, R588, R593, R596; 22 R646, R649, R650; 24 R679, R680). -/

namespace Sys2Proof.Machine

/-! ## Bytes, digests and measurements (R593) -/

/-- Bytes [o, o + n) of a list. -/
def sliceOf (bs : List Byte) (o n : Nat) : List Byte := (bs.drop o).take n
def numAt (bs : List Byte) (o n : Nat) : Nat := leNat (sliceOf bs o n)
def zerosAt (bs : List Byte) (o n : Nat) : Bool := (sliceOf bs o n).all fun b => b == 0
/-- The bytes of ASCII text given as codes. -/
def ascii (cs : List Nat) : List Byte := cs.map fun c => BitVec.ofNat 8 c
def digestBytes (d : BitVec 256) : List Byte := leBytes 32 d.toNat

/-- MR.n. -/
def SecBlk.mrAt (x : SecBlk) (n : Nat) : BitVec 256 := mget 0 x.mr n
/-- MR.n := SHA-256(MR.n ‖ d). -/
def SecBlk.extend (x : SecBlk) (n : Nat) (d : BitVec 256) : SecBlk :=
  { x with mr := mset x.mr n (Config.sha256 (digestBytes (x.mrAt n) ++ digestBytes d)) }
def State.extend (s : State) (n : Nat) (d : BitVec 256) : State := { s with sec := s.sec.extend n d }

/-! ## The key engine (R591) -/

/-- HMAC-SHA-256 with a key of 32 bytes (RFC 2104). -/
def hmac (key : BitVec 256) (msg : List Byte) : BitVec 256 :=
  let k := digestBytes key ++ List.replicate 32 0
  Config.sha256 (k.map (· ^^^ 0x5C) ++ digestBytes (Config.sha256 (k.map (· ^^^ 0x36) ++ msg)))

/-- The key of a label; none without a secret, and none after the kill fuse (R603). -/
def Fuses.deviceKey (f : Fuses) (label : List Byte) : Option (BitVec 256) :=
  if f.kill then none else f.secret.map fun k => hmac k label

/-- "DRE1 ", which begins every label of Table 20-3. -/
def labelDre : List Byte := ascii [68, 82, 69, 49, 32]
/-- "DRE1 top seed". -/
def labelTopSeed : List Byte := labelDre ++ ascii [116, 111, 112, 32, 115, 101, 101, 100]
/-- "DRE1 top id". -/
def labelTopId : List Byte := labelDre ++ ascii [116, 111, 112, 32, 105, 100]
/-- "DRE1 bot seed", q as 4 bytes. -/
def labelBotSeed (q : Nat) : List Byte := labelDre ++ ascii [98, 111, 116, 32, 115, 101, 101, 100] ++ leBytes 4 q
/-- "DRE1 bot id", q as 4 bytes. -/
def labelBotId (q : Nat) : List Byte := labelDre ++ ascii [98, 111, 116, 32, 105, 100] ++ leBytes 4 q
/-- "DRE1 field map", serial as 16 bytes. -/
def labelFieldMap (serial : BitVec 128) : List Byte := labelDre ++ ascii [102, 105, 101, 108, 100, 32, 109, 97, 112] ++ leBytes 16 serial.toNat

/-- SEED and I of a tree: I is the first 16 bytes of its key. -/
def Fuses.treeKeys (f : Fuses) (seed id : List Byte) : Option (BitVec 256 × BitVec 128) :=
  match f.deviceKey seed, f.deviceKey id with
  | some a, some b => some (a, b.extractLsb' 0 128)
  | _, _ => none
def Fuses.topKeys (f : Fuses) : Option (BitVec 256 × BitVec 128) := f.treeKeys labelTopSeed labelTopId
def Fuses.botKeys (f : Fuses) (q : Nat) : Option (BitVec 256 × BitVec 128) := f.treeKeys (labelBotSeed q) (labelBotId q)

/-- n bytes of a list, zeros where it is shorter. -/
def fixedLen (n : Nat) (bs : List Byte) : List Byte := (bs ++ List.replicate n 0).take n

/-- The LMS public key of a tree, 56 bytes (Table 20-1), whose last 32 are its root. -/
def treePublic (height : Nat) (k : BitVec 256 × BitVec 128) : List Byte := fixedLen 56 (Config.lmsPublic height k.1 k.2)

/-- At PROVISIONED, while VDD_FUSE is there: the secret is drawn and burnt; the top tree's node hashes go to the identity region, and the hash of its root into fuses (R591, R595, R675). -/
def State.provision (s : State) (vfuse : Bool) : State :=
  if s.fuses.lc = 1 ∧ s.fuses.secret = none ∧ s.fuses.kill = false ∧ vfuse then
    let f := { s.fuses with secret := some (Config.secret s.sec.nonce) }
    match f.topKeys with
    | some k => { s with fuses := { f with rootHash := Config.sha256 ((treePublic 15 k).drop 24) }
                         nor := { s.nor with nodes := Config.lmsNodes 15 k.1 k.2 } }
    | none => s
  else s

/-- The certificate's key and serial number are those of the fuses (R595): the key's last 32 bytes are the root. -/
def State.identityGood (s : State) : Bool :=
  match Config.certificate s.nor.cert with
  | some (key, serial) => decide (1 ≤ s.fuses.lc) && serial == s.fuses.serial && Config.sha256 (key.drop 28) == s.fuses.rootHash
  | none => false

/-! ## The field map (R569 to R571) -/

/-- "DRE1FMAP". -/
def fmapMagic : List Byte := ascii [68, 82, 69, 49, 70, 77, 65, 80]

/-- Entries of an image as words. -/
def fmapEntries (bs : List Byte) : List Word := (List.range (numAt bs 10 2)).map fun i => BitVec.ofNat 64 (numAt bs (64 + 8 * i) 8)

/-- The part of an image that its MAC covers. -/
def fmapBody (bs : List Byte) : List Byte := bs.take (64 + 8 * numAt bs 10 2)
def fmapSeq (bs : List Byte) : Nat := numAt bs 12 4

/-- The form of an image without its MAC (R569, Table 19-5). -/
def fmapForm (serial : BitVec 128) (bs : List Byte) : Bool :=
  bs.take 8 == fmapMagic && numAt bs 8 2 == 1 && numAt bs 16 16 == serial.toNat && zerosAt bs 32 32
    && decide (64 + 8 * numAt bs 10 2 ≤ bs.length) && decide (64 + 8 * numAt bs 10 2 + 32 ≤ 65536)
    && (fmapEntries bs).all fun w => fld w 24 40 == 0

/-- The field-map key (Table 20-3). -/
def Fuses.mapKey (f : Fuses) : Option (BitVec 256) := f.deviceKey (labelFieldMap f.serial)

/-- An image with its MAC. -/
def fmapSigned (f : Fuses) (body : List Byte) : List Byte := body ++ (f.mapKey.map fun k => digestBytes (hmac k body)).getD []

/-- A copy passes: its form, its serial number and its MAC (R570). -/
def fmapValid (f : Fuses) (bs : List Byte) : Bool :=
  f.mapKey.isSome && fmapForm f.serial bs && bs == fmapSigned f (fmapBody bs)

/-- The copy in use: the image, and whether it is copy 1. -/
def State.fmapInUse (s : State) : Option (List Byte × Bool) :=
  let ok0 := fmapValid s.fuses s.nor.fm0
  let ok1 := fmapValid s.fuses s.nor.fm1
  if ok0 ∧ ok1 then (if fmapSeq s.nor.fm0 < fmapSeq s.nor.fm1 then some (s.nor.fm1, true) else some (s.nor.fm0, false))
  else if ok0 then some (s.nor.fm0, false) else if ok1 then some (s.nor.fm1, true) else none

/-- Writing a complete image over the other copy. -/
def State.fmapPut (s : State) (img : List Byte) : State :=
  match s.fmapInUse with
  | some (_, true) => { s with nor := { s.nor with fm0 := img }, mbx := { s.mbx with staleF := true } }
  | some (_, false) => { s with nor := { s.nor with fm1 := img }, mbx := { s.mbx with staleF := true } }
  | none => { s with nor := { s.nor with fm0 := img }, mbx := { s.mbx with staleF := true } }

/-- A header and entries. -/
def fmapImage (serial : BitVec 128) (seq : Nat) (es : List Word) : List Byte :=
  fmapMagic ++ leBytes 2 1 ++ leBytes 2 es.length ++ leBytes 4 seq ++ leBytes 16 serial.toNat ++ List.replicate 32 0
    ++ es.flatMap fun w => leBytes 8 w.toNat

/-- The field map with entries added, SEQ one above the copy in use (R571). -/
def State.fmapAdd (s : State) (es : List Word) : State :=
  let old := (s.fmapInUse.map fun p => fmapEntries p.1).getD []
  let seq := (s.fmapInUse.map fun p => fmapSeq p.1).getD 0
  let fresh := es.filter fun w => !old.contains w
  if fresh = [] ∨ s.fuses.mapKey.isNone then s else s.fmapPut (fmapSigned s.fuses (fmapImage s.fuses.serial (seq + 1) (old ++ fresh)))

/-- Field-map entries (Table 19-5). -/
def entryCore (phys : Nat) : Word := pack [(1, 0, 8), (phys / 72, 8, 8), (phys / 9 % 8, 16, 4), (phys % 9, 20, 4)]
def entrySite (h : Nat) : Word := pack [(2, 0, 8), (h, 8, 8)]
def entryPort (k : Nat) : Word := pack [(3, 0, 8), (k, 8, 8)]

/-! ## The unit map (R564 to R568) -/

/-- Physical cores, sites and ports that the field map removes. -/
def mapCores (es : List Word) : List Nat := (es.filter fun w => fld w 0 8 == 1).map fun w => fld w 8 8 * 72 + fld w 16 4 * 9 + fld w 20 4
def mapUnits (es : List Word) (kind : Nat) : List Nat := (es.filter fun w => fld w 0 8 == kind).map fun w => fld w 8 8

/-- A mask with some bits cleared. -/
def clearBits (n : Nat) (m : BitVec n) (ks : List Nat) : BitVec n := ks.foldl (fun m k => m &&& ~~~(BitVec.ofNat n (2 ^ k))) m

/-- The failed positions of a row of a cluster. -/
def rowFailed (failed : List Nat) (cl row : Nat) : List Nat := (List.range 9).filter fun p => failed.contains (cl * 72 + row * 9 + p)

/-- A row's spare code; none when the cluster becomes absent (R565). -/
def rowCode (failed : List Nat) (cl row : Nat) : Option Nat :=
  match rowFailed failed cl row with
  | [] => some 8
  | [8] => some 9
  | [c] => some c
  | _ => none

/-- The effective unit map from the fused map, the field map and what this boot has found (R564, R565, R573). -/
def State.buildMap (s : State) : UMap :=
  let es := (s.fmapInUse.map fun p => fmapEntries p.1).getD []
  let failed := s.fuses.failed ++ mapCores es ++ s.brg.bad
  let had := s.fuses.clusters &&& ~~~s.brg.badClusters
  let gone := (List.range 48).filter fun n => had.getLsbD n && (List.range 8).any fun r => (rowCode failed n r).isNone
  let here := clearBits 48 had gone
  { devid := partDevid s.fuses.part
    clusters := here
    sites := clearBits 6 (s.fuses.sites &&& ~~~s.brg.badSites) (mapUnits es 2)
    ports := clearBits 8 s.fuses.ports (mapUnits es 3)
    rows := (List.range 384).filterMap fun i =>
      let code := if here.getLsbD (i / 8) then (rowCode failed (i / 8) (i % 8)).getD 15 else 15
      if code = 8 then none else some (i, code) }

/-- The 256 bytes of the unit map (Table 19-3). -/
def UMap.bytes (u : UMap) : List Byte :=
  leBytes 8 (u.devid + 65536) ++ leBytes 8 u.units.toNat
    ++ (List.range 48).flatMap (fun n => leBytes 4 (((List.range 8).map fun r => mget 8 u.rows (8 * n + r) * 16 ^ r).sum))
    ++ List.replicate 48 0

/-- The map is decided, or amended: its digest, and MR.3 (R568, R573, Table 20-4). -/
def State.decideMap (s : State) : State :=
  let u := s.buildMap
  let d := Config.sha256 u.bytes
  ({ s with brg := { s.brg with umap := u, mapdig := d } }).extend 3 d

/-- Fewer clusters or stacks than the part's figures (R574, Tables 0-1 and 1-7). -/
def State.mapShort (s : State) : Bool :=
  let n := ((List.range 48).filter s.brg.umap.clusters.getLsbD).length
  let k := ((List.range 6).filter s.brg.umap.sites.getLsbD).length
  decide (n < if s.fuses.part = 3 then 40 else 48) || decide (k < [6, 5, 4, 4].getD s.fuses.part 6)

/-! ## Resets (R649, R679, R680) -/

/-- What survives every reset: fuses, SPI NOR, the commands that wait, what the host has received, and the count of nonces drawn (R605). -/
def State.afterReset (s : State) : State :=
  { pending := s.pending, fuses := s.fuses, nor := s.nor, hif := { out := s.hif.out }, sec := { nonce := s.sec.nonce + 1 } }

/-- COLD_RESET: PERST_N or PWRGOOD is low; the regulator enables go low (R674), THERMTRIP_N stays (R620). -/
def State.coldReset (s : State) : State :=
  let s1 := s.afterReset
  { s1 with pins := { pwrgood := s.pins.pwrgood, perst := false, throttle := s.pins.throttle, thermtrip := s.pins.thermtrip, bootsrc := s.pins.bootsrc, gpioIn := s.pins.gpioIn } }

/-- PWRGOOD_FALL: THERMTRIP_N is released too (R620, R680). -/
def State.pwrgoodFall (s : State) : State :=
  let s1 := s.coldReset
  { s1 with pins := { s1.pins with pwrgood := false, thermtrip := false } }

/-- COLD_RESET_RELEASE: phase 1 begins (R560, R679). -/
def State.coldRelease (s : State) : State :=
  if s.brg.phase = 0 then { s with brg := { s.brg with phase := 1 }, pins := { s.pins with pwrgood := true, perst := true } } else s

/-- A warm chip reset: the host interface's registers, the telemetry block, the regulator enables and THERMTRIP_N stay; phase 2 begins (R545, R581, R649, R674). -/
def State.warmReset (s : State) : State :=
  let s1 := s.afterReset
  { s1 with hif := { s.hif with dev := 0, job := 0, hwt := [], wins := [], reads := [], flush := [], bells := [], bar := [] }, tel := { s.tel with window := 0, prev := [] }
            pins := { s.pins with gpioOe := 0, gpioOut := 0 }
            pwr := { w := { vren := s.pwr.w.vren }, e := { vren := s.pwr.e.vren } }
            brg := { phase := 2, warm := true, straps := s.brg.straps } }

/-! ## Firmware images (R587, R588, R558) -/

/-- "DRE1FWIM". -/
def fwMagic : List Byte := ascii [68, 82, 69, 49, 70, 87, 73, 77]
def fwSlot (b : List Byte) : Nat := numAt b 10 1
def fwSvn (b : List Byte) : Nat := numAt b 11 1

/-- A slot is enabled and not revoked. -/
def Fuses.slotGood (f : Fuses) (k : Nat) : Bool := decide (k < 4) && f.slotEn.getLsbD k && !f.slotRev.getLsbD k

/-- The key of a signer is that of slot k. -/
def keyIsSlot (k : Nat) (key : List Byte) : Bool := Config.sha256 key == Config.vendorKey k

/-- The checks of R588, in its order; a BLANK part boots slot 0 only (Table 20-8). -/
def State.imageGood (s : State) (b : List Byte) : Bool :=
  b.take 8 == fwMagic && numAt b 8 2 == 1 && numAt b 17 3 == 0 && decide (numAt b 16 1 ≤ 1) && zerosAt b 120 136
    && s.fuses.slotGood (fwSlot b)
    && keyIsSlot (fwSlot b) (sliceOf b 28 60)
    && decide (s.fuses.svn ≤ fwSvn b) && decide (fwSvn b ≤ 64)
    && Config.hssVerify (sliceOf b 28 60) (b.take 256) (sliceOf b 256 5396)
    && decide (b.length = 5652 + numAt b 20 8) && Config.sha256 (b.drop 5652) == BitVec.ofNat 256 (numAt b 88 32)
    && (s.fuses.lc != 0 || fwSlot b == 0)

/-- The image that the ROM boots from SPI NOR: the one with the higher security version first (R558). -/
def State.norImage (s : State) : Option (List Byte × Bool) :=
  let a := s.nor.imgA
  let b := s.nor.imgB
  let first := if fwSvn a < fwSvn b then [(b, false), (a, true)] else [(a, true), (b, false)]
  first.find? fun p => s.imageGood p.1

/-! ## DEV and phases (R560 to R563, R579) -/

/-- A bring-up failure: DEV FAILED (R563). -/
def State.bootFail (s : State) (cause : Nat) : State := ({ s with brg := { s.brg with fcause := cause, pushing := false } }).setDev 3

/-- Phase n has ended: its TB is recorded and the next one runs. -/
def State.endPhase (s : State) (n : Nat) : State := { s with brg := { s.brg with ptb := mset s.brg.ptb n s.tb, phase := n + 1 } }

/-- A hold cause is set (Table 19-6). -/
def State.hold (s : State) (b : Nat) : State := { s with brg := { s.brg with hold := s.brg.hold ||| BitVec.ofNat 5 (2 ^ (b - 8)) } }

/-- The end of phase 1: fuses sensed, straps latched (R557). -/
def State.phase1 (s : State) (x : PhaseEnd) : State :=
  if x.failed then s.bootFail 1 else ({ s with brg := { s.brg with straps := x.straps % 4 }, pins := { s.pins with bootsrc := x.straps % 4 } }).endPhase 1

/-- An image is accepted: it runs, and phase 2 ends (Tables 20-2 and 20-4, R595). -/
def State.acceptImage (s : State) (b : List Byte) (fromA pushed : Bool) : State :=
  let f := s.fuses
  let sec1 := { s.sec with slot := fwSlot b, image := fwSvn b, fwver := numAt b 12 4, commit := numAt b 16 1 == 1 && f.lc != 0
                           runtime := Config.runtimeDigest (b.drop 5652), fromA := fromA, idok := s.identityGood }
  let sec2 := (sec1.extend 0 Config.romDigest).extend 0 (Config.fuseDigest ([f.lc, f.slotEn.toNat, f.slotRev.toNat, f.svn, f.clusters.toNat, f.sites.toNat, f.ports.toNat] ++ f.failed))
  ({ s with sec := sec2.extend 1 (Config.sha256 (b.take 256)), brg := { s.brg with image := b, src := pushed, pushing := false } }).endPhase 2

/-- The end of phase 2's self-test: SPI NOR or a host push (R557 to R559, R563, R603). -/
def State.phase2 (s : State) (x : PhaseEnd) : State :=
  if s.brg.pushing then s
  else if x.failed then s.bootFail 2
  else if s.fuses.kill ∨ s.fuses.lc = 4 then s.bootFail 3
  else if s.brg.straps % 2 = 1 then { s with brg := { s.brg with pushing := true } }
  else match s.norImage with
    | some (b, a) => s.acceptImage b a false
    | none => if s.brg.straps = 0 then { s with brg := { s.brg with pushing := true } } else s.bootFail 3

/-- The topology descriptor in force. -/
def Nor.topology (n : Nor) : List Byte := if n.topoCur then n.topo1 else n.topo0

/-- The end of phase 3: the secret of a part just PROVISIONED, the maps, wear offsets and regulators, which THERMTRIP_N keeps off (R570, R576, R577, R621, R674). -/
def State.phase3 (s0 : State) (x : PhaseEnd) : State :=
  let s := s0.provision x.vfuse
  let d := s.nor.topology
  let topo := if d = [] then none else some (Config.topology d s.fuses.serial)
  let half (w : Nat) : Half := { on := !s.pins.thermtrip, wear := w, set := 750 + w, vren := !s.pins.thermtrip }
  let s1 := { s with brg := { s.brg with topo := topo, topoDig := if d = [] then 0 else Config.sha256 d, alone := d == [] }
                     pwr := { s.pwr with w := half s.nor.wearW, e := half s.nor.wearE, wearex := s.nor.overW || s.nor.overE } }
  let held := s.fmapInUse.isNone && (s.nor.fm0 != [] || s.nor.fm1 != [])
  ((if held then s1.hold 11 else s1).decideMap).endPhase 3

/-- The logical cores of a cluster that are present and not failed. -/
def State.clCores (s : State) (n : Nat) : List Nat :=
  ((List.range 64).map fun i => lcOf n (i / 8) (i % 8)).filter s.present

/-- Core reset with its wipe, and out of core reset (R77, R584). -/
def State.releaseCore (s : State) (l : Nat) : State := (s.resetCore l).holdCore l false

/-- The end of a cluster's STARTING. -/
def State.clusterStart (s : State) (n : Nat) : State :=
  let f := s.cl n
  if f.st ≠ .starting then s
  else if !s.clPresent n then s.setCl n f.startRefused
  else
    let s1 := (s.clCores n).foldl State.releaseCore s
    if f.en then s1.setCl n f.startOk
    else ((s.clCores n).foldl (fun s l => s.setCore l (corePark (s.env l) (s.coreAt l))) s1).setCl n f.startOk

/-- A write of CL.n.CTL.EN; the block of an absent cluster ignores it (R584, R654). STOPPING parks every core. -/
def State.clusterEnable (s : State) (n : Nat) (v : Bool) : State :=
  let f := s.cl n
  if !s.brg.umap.clusters.getLsbD n ∨ !(s.half (clEast n)).on then s
  else
    let s1 := s.setCl n (f.write v)
    if f.st = .on ∧ v = false then (s.clCores n).foldl (fun s l => s.setCore l (corePark (s.env l) (s.coreAt l))) s1 else s1

/-- CLUSTER_STOP_COMPLETE: every core is parked; each enters core reset (R584). -/
def State.clusterStop (s : State) (n : Nat) : State :=
  let f := s.cl n
  if f.st = .stopping ∧ (s.clCores n).all (fun l => (s.coreAt l).allParked (s.env l)) then
    ((s.clCores n).foldl (fun s l => (s.resetCore l).holdCore l true) s).setCl n f.stopDone
  else s

/-- CLUSTER_RESET: every core, the CC's firmware and the barrier node; router blocks and ERR counters stay (R649). -/
def State.clusterReset (s : State) (n : Nat) : State :=
  let s1 := (s.clCores n).foldl (fun s l => s.resetCore l) s
  { s1 with mc := { s1.mc with beats := mdel s1.mc.beats n } }

/-- A record of bring-up (class 0x19): KEY is the unit's kind, DETAIL the unit. -/
def State.bootRecord (s : State) (sev kind detail : Nat) : State := s.mcRecord 0x19 sev kind detail

/-- The end of phase 4: BIST, sparing again, and every present cluster started with its wipe (R573, R584). -/
def State.phase4 (s : State) (x : PhaseEnd) : State :=
  let bad := x.bist.filter fun p => s.brg.umap.clusters.getLsbD (p / 72) && !s.brg.bad.contains p
  let s1 := { s with brg := { s.brg with bad := s.brg.bad ++ bad } }
  let s2 := if bad = [] then s1 else s1.decideMap
  let s3 := bad.foldl (fun t p => t.bootRecord (if s2.brg.umap.clusters.getLsbD (p / 72) then 0 else 2) 1 p) s2
  let s4 := s3.fmapAdd (bad.map entryCore)
  let s5 := (List.range 48).foldl (fun t n => if t.clPresent n then (t.setCl n ((t.cl n).write true)).clusterStart n else t) s4
  s5.endPhase 4

/-- Making a claim (R596): false when it fails. -/
def State.claim (s : State) (vfuse : Bool) : State × Bool :=
  if 8192 ≤ s.fuses.claims ∨ !s.sec.idok ∨ !vfuse ∨ s.fuses.topKeys.isNone then (s, false)
  else ({ s with fuses := { s.fuses with claims := s.fuses.claims + 1 }, sec := { s.sec with claim := s.fuses.claims, left := 1024 } }, true)

/-- The end of phase 5: stacks trained, the listed repairs applied again, and wiped, one above 85 °C in doubled refresh (R449, R451); a claim when the descriptor connects a port (R453, R573, R597). -/
def State.phase5 (s : State) (x : PhaseEnd) : State :=
  let bad := (List.range 6).filter fun h => s.brg.umap.sites.getLsbD h && x.untrained.getLsbD h
  let s1 := { s with brg := { s.brg with badSites := s.brg.badSites ||| x.untrained } }
  let s2 := if bad = [] then s1 else s1.decideMap
  let s3 := bad.foldl (fun t h => t.bootRecord 2 2 h) (s2.fmapAdd (bad.map entrySite))
  let s4 := (List.range 6).foldl (fun t h => if t.sitePresent h then
      let temp := mget 0 x.temps h
      let u := t.setStk h { fsm := { en := true, st := .on }, temp := temp, doubled := decide (85 < temp), passFrom := t.tb
                            fixed := (t.nor.repairs.filter fun r => r.1 == h).map Prod.snd }
      if 85 < temp then u.siteRecord h 0 0x12 0 0 temp else u
    else t) s3
  let links := (s4.brg.topo.map Config.Topo.links).getD []
  (if links = [] then s4 else (s4.claim x.vfuse).1).endPhase 5

/-- The routers that a broadcast reaches in a half, in its order: from pc 34 or pc 36 along pr 47 to every column of the half, then north up each (R405). -/
def broadcastPath (east : Bool) : List Nat :=
  (if east then (List.range 36).map fun i => 36 + i else ((List.range 35).map fun i => 34 - i) ++ [35]).flatMap fun pc => (List.range 48).map fun i => (47 - i) * 72 + pc

/-- A notice of the MC in the management class, with a mask of target clusters: every router copies it to its core when the cluster is in the mask (R405). -/
def State.broadcast (s : State) (mask : BitVec 48) (f : State → Nat → State) : State :=
  ((broadcastPath false ++ broadcastPath true).filter fun n => mask.getLsbD (physOf n / 72)).foldl
    (fun t n => match t.coreAtNode n with | some l => f t l | none => t) s

/-- The Pour into one core: the runtime's instruction words and scratchpad bytes (R575). -/
def State.pourCore (s : State) (l : Nat) : State :=
  let p := s.brg.image.drop 5652
  let c := s.coreAt l
  s.setCore l { c with imem := (Config.runtimeWords p).foldl (fun m w => mset m w.1 w.2) c.imem
                       spad := (Config.runtimeBytes p).foldl (fun sp b => sp.wideWrite b.1 b.2 fun _ => false) c.spad }

/-- The end of phase 6: the Pour; a cluster that still fails becomes absent (R573, R575). Then the connected ports are enabled (R578). -/
def State.phase6 (s : State) (x : PhaseEnd) : State :=
  let bad := (List.range 48).filter fun n => s.clPresent n && x.unpoured.getLsbD n
  let s1 := bad.foldl (fun t n => ((t.clCores n).foldl (fun u l => (u.resetCore l).holdCore l true) t).setCl n {}) s
  let s2 := { s1 with brg := { s1.brg with badClusters := s1.brg.badClusters ||| x.unpoured } }
  let s3 := if bad = [] then s2 else s2.decideMap
  let s4 := bad.foldl (fun t n => t.bootRecord 2 3 n) (s3.fmapAdd (bad.flatMap fun n => (List.range 72).map fun i => entryCore (72 * n + i)))
  let s5 := s4.broadcast (BitVec.ofNat 48 ((List.range 48).foldl (fun m n => if s4.clPresent n then m + 2 ^ n else m) 0)) State.pourCore
  let links := (s5.brg.topo.map Config.Topo.links).getD []
  let s6 := links.foldl (fun t p => t.portEnable p.1 true) (s5.extend 2 s5.sec.runtime)
  s6.endPhase 6

/-- The end of phase 7: a connected port that is not ON failed training (Table 19-6). -/
def State.phase7 (s : State) : State :=
  let links := (s.brg.topo.map Config.Topo.links).getD []
  let bad := links.any fun p => !(s.port p.1).up && !(s.port p.1).miswired
  (if bad then s.hold 10 else s).endPhase 7

/-- A port whose peer is not the descriptor's is marked MISWIRED and turned OFF (R578). -/
def State.miswire (s : State) (k : Nat) : State :=
  let p := s.port k
  (s.setPort k { p with miswired := true }).portOff k p.fsm.ownClear 6 3 (s.router (linkNode k)).streams

/-- The descriptor's entry for this chip is placed, and its connections are checked (R578). -/
def State.placeChip (s : State) (t : Config.Topo) (missing : List Nat) : State :=
  let routes := t.routes.filter fun r => !missing.contains r.1
  let a : State := { s with chipId := t.chip, chipLock := true, crt := routes.foldl (fun m r => mset m r.1 { v := true, port := r.2 }) [] }
  let b : State := if t.root then a.roleWrite 0x20 else a.roleWrite (pack [(1, 4, 1), (t.up, 0, 3)])
  let wrong := t.links.filter fun l => (b.port l.1).up && ((b.port l.1).peerChip != l.2.1 || (b.port l.1).peerPort != l.2.2)
  let c : State := wrong.foldl (fun u l => State.miswire u l.1) b
  if missing = [] then c else c.hold 9

/-- The end of phase 8: chip ID, routes, the time tree, discovery, and READY or HELD (R562, R577 to R579, R599). -/
def State.phase8 (s : State) (x : PhaseEnd) : State :=
  let s1 : State := match s.brg.topo with
    | none => ({ s with chipId := 0 } : State).roleWrite 0x20
    | some t => s.placeChip t x.missing
  let s2 := if (List.range 8).any (fun k => (s1.port k).miswired) then s1.hold 8 else s1
  let s3 := if s2.mapShort then s2.hold 12 else s2
  let s4 := s3.extend 4 s3.brg.topoDig
  let s5 := (List.range 5).foldl (fun t b => if t.brg.hold.getLsbD b then t.mcRecord 0x19 2 (b + 8) 0 else t) s4
  let s6 := if 8192 ≤ s5.fuses.claims then s5.bootRecord 0 13 s5.fuses.claims else s5
  let s7 := if s6.pwr.wearex then s6.mcRecord 0x17 2 4 (if s6.nor.overW then s6.pwr.w.set else s6.pwr.e.set) else s6
  let s8 := (({ s7 with mc := { s7.mc with dripDue := true } } : State).endPhase 8).setDev (if s7.brg.hold = 0 then 1 else 2)
  s8.hif.warmTags.foldl (fun t g => t.complete g 5 0 0) { s8 with hif := { s8.hif with warmTags := [] } }

/-- BRINGUP_PHASE_END: the phase that runs ends. -/
def State.phaseEnd (s : State) (x : PhaseEnd) : State :=
  if s.hif.dev = 3 then s
  else match s.brg.phase with
    | 1 => s.phase1 x
    | 2 => s.phase2 x
    | 3 => s.phase3 x
    | 4 => s.phase4 x
    | 5 => s.phase5 x
    | 6 => s.phase6 x
    | 7 => s.phase7
    | 8 => s.phase8 x
    | _ => s

/-- BRG_ACCEPT (R580). -/
def State.brgAccept (s : State) (v : Word) : State :=
  let acc := s.brg.acc ||| (BitVec.ofNat 5 (fld v 8 5) &&& s.brg.hold)
  let s1 := { s with brg := { s.brg with acc := acc } }
  if s.hif.dev = 2 ∧ s.brg.hold &&& ~~~acc = 0 then s1.setDev 1 else s1

/-! ## FIELDMAP (R571, R592) -/

/-- The FIELDMAP command: an image whose MAC verifies and whose SEQ is higher, or one that an edit token names. -/
def State.fieldmap (s : State) (data : Option (List Byte)) : State :=
  match s.takeCmd 7 with
  | none => s
  | some (c, s1) =>
    let n := (c.word 2).toNat
    if !c.plain 2 ∨ n = 0 ∨ 65536 < n then s1.complete c.tag 7 1 0
    else if s1.hif.dev ≠ 1 ∧ s1.hif.dev ≠ 2 then s1.complete c.tag 7 2 0
    else match data with
      | none => s1.complete c.tag 7 7 0
      | some bs =>
        let seq := (s1.fmapInUse.map fun p => fmapSeq p.1).getD 0
        let body := fmapBody bs
        if s1.fuses.mapKey.isSome ∧ fmapForm s1.fuses.serial bs ∧ s1.sec.edit = some (Config.sha256 body) then
          ({ s1.fmapPut (fmapSigned s1.fuses body) with sec := { s1.sec with edit := none } }).complete c.tag 7 0 0
        else if fmapValid s1.fuses bs ∧ seq < fmapSeq bs then (s1.fmapPut bs).complete c.tag 7 0 0
        else s1.complete c.tag 7 10 0

/-! ## The commands -/

/-- COLD_RESET (R679). -/
def execColdReset (s : State) : Out := .next s.coldReset
/-- COLD_RESET_RELEASE (R560). -/
def execColdResetRelease (s : State) : Out := .next s.coldRelease
/-- PWRGOOD_FALL (R680). -/
def execPwrgoodFall (s : State) : Out := .next s.pwrgoodFall
/-- BRINGUP_PHASE_END (R560). -/
def execBringupPhaseEnd (x : PhaseEnd) (s : State) : Out := .next (s.phaseEnd x)
/-- BRG_ACCEPT (R580). -/
def execBrgAccept (v : Word) (s : State) : Out := .next (s.brgAccept v)
/-- CLUSTER_ENABLE (R584). -/
def execClusterEnable (n : Fin 48) (s : State) : Out := .next (s.clusterEnable n.val true)
/-- CLUSTER_DISABLE (R584). -/
def execClusterDisable (n : Fin 48) (s : State) : Out := .next (s.clusterEnable n.val false)
/-- CLUSTER_START_COMPLETE (R584). -/
def execClusterStartComplete (n : Fin 48) (s : State) : Out := .next (s.clusterStart n.val)
/-- CLUSTER_STOP_COMPLETE (R584). -/
def execClusterStopComplete (n : Fin 48) (s : State) : Out := .next (s.clusterStop n.val)
/-- CLUSTER_RESET (R649). -/
def execClusterReset (n : Fin 48) (s : State) : Out := .next (s.clusterReset n.val)
/-- FIELDMAP (R571). -/
def execFieldmap (data : Option (List Byte)) (s : State) : Out := .next (s.fieldmap data)

end Sys2Proof.Machine
end

