-- ==== Sys2Proof/Machine/Loader.lean ====
section
/-! DEFINITION. Loadables and the job life cycle: LOAD, START, RESET and the job clear (spec 18 R550 to R555; 12 R408, R410; 11 R357). -/

namespace Sys2Proof.Machine

/-! ## The checks of a loadable (R550, R551, Table 18-9) -/

/-- "DRE1LOAD". -/
def loadMagic : List Byte := ascii [68, 82, 69, 49, 76, 79, 65, 68]

/-- The TYPE of a section (Table 18-10). -/
def Section.type : Section → Nat
  | .image .. => 1 | .route .. => 2 | .config .. => 3 | .region .. => 4 | .pace .. => 5 | .part .. => 6 | .seed .. => 7 | .threads .. => 8 | .service .. => 9

/-- The header names this part, this chip and this topology, and is well formed. -/
def State.headerGood (s : State) (b : List Byte) (n : Nat) : Bool :=
  b.take 8 == loadMagic && numAt b 8 2 == 1 && decide (numAt b 10 2 ≤ 1) && numAt b 16 8 == n && b.length == n && decide (128 ≤ n)
    && inMask (numAt b 24 1) s.fuses.part && decide (numAt b 24 1 < 16) && zerosAt b 25 3 && decide (numAt b 28 4 ≤ s.sec.fwver)
    && decide (1 ≤ numAt b 32 2 ∧ numAt b 32 2 ≤ 4095) && decide (s.chipId < numAt b 32 2) && zerosAt b 34 30
    && BitVec.ofNat 256 (numAt b 64 32) == s.brg.topoDig

/-- The logical core that a section targets. -/
def Section.core : Section → Option Nat
  | .image l .. => some l | .config l .. => some l | .threads l .. => some l | _ => none

/-- The section table is well formed and lists these sections. -/
def tableGood (b : List Byte) (n : Nat) (secs : List Sec) : Bool :=
  secs.length == numAt b 12 4 && decide (128 + 32 * secs.length ≤ n)
    && (List.range secs.length).all fun i =>
      let o := 128 + 32 * i
      let w0 := BitVec.ofNat 64 (numAt b o 8)
      match secs[i]? with
      | some x => fld w0 0 16 == x.sec.type && fld w0 16 12 == x.chip && fld w0 28 4 == 0 && (x.sec.core.map fun l => fld w0 32 32 == l).getD true && zerosAt b (o + 24) 8
          && decide (numAt b (o + 8) 8 + numAt b (o + 16) 8 ≤ n)
      | none => false

/-- The digest of the whole loadable with DIGEST zeroed. -/
def loadDigest (b : List Byte) : BitVec 256 := Config.sha256 (b.take 96 ++ List.replicate 32 0 ++ b.drop 128)

/-! ## Placement -/

/-- A section may target a core that is present and out of core reset. -/
def State.coreOk (s : State) (l : Nat) : Bool := decide (l < 3072) && s.present l && !(s.coreAt l).held

/-- One register of a core, as the loader writes it: an outbound endpoint is opened later, and a ring that is enabled starts. -/
def State.loadReg (s : State) (l : Nat) (r : Nat × Word) : State :=
  let cho := decide (0x1400 ≤ r.1 ∧ r.1 < 0x1C00 ∧ r.1 % 32 = 0)
  let v := if cho then r.2 &&& ~~~(BitVec.ofNat 64 (2 ^ 63)) else r.2
  let s1 := s.onCore l fun e c => ioWrite e c none r.1 v
  if 0x1000 ≤ r.1 ∧ r.1 < 0x1200 then s1.onCore' l fun e c => ringStart e c ((r.1 - 0x1000) / 32) else s1

/-- A ring that a section enabled has refused its start. -/
def State.ringsRefused (s : State) (l : Nat) (regs : List (Nat × Word)) : Bool :=
  regs.any fun r => decide (0x1000 ≤ r.1 ∧ r.1 < 0x1200 ∧ r.1 % 32 = 0) && bit r.2 63 && ((s.coreAt l).ringAt ((r.1 - 0x1000) / 32)).fsm.st != .on

/-- What was written to the reserved fields of register i of an entry. -/
def Region.reserve (r : Region) (i : Nat) (b : Bool) : BitVec 3 := if b then r.rsvd ||| BitVec.ofNat 3 (2 ^ i) else r.rsvd &&& ~~~(BitVec.ofNat 3 (2 ^ i))

/-- Reserved bits of VBASE and SIZE other than zero. -/
def byteCountReserved (v : Word) : Bool := fld v 48 16 != 0 || fld v 0 8 != 0

/-- The fields of a region entry, writable while OFF (Table 14-6). -/
def Region.fields (r : Region) (cfg : Word) : Region :=
  { r with mode := fld cfg 56 3, tgt := fld cfg 52 4, ch := fld cfg 48 4, pbase := fld cfg 0 24, rsvd := r.reserve 0 (fld cfg 24 24 != 0) }

/-- A write in the block of REGION.n. -/
def State.regionWrite (s : State) (n o : Nat) (v : Word) : State :=
  let r := s.region n
  match o with
  | 0x00 => (s.setRegion n (if r.fsm.st = .off then r.fields v else r)).regionEnable n (bit v 63)
  | 0x08 => if r.fsm.st = .off then s.setRegion n { r with vbase := fld v 8 40 * 256, rsvd := r.reserve 1 (byteCountReserved v) } else s
  | 0x10 => if r.fsm.st = .off then s.setRegion n { r with size := fld v 8 40 * 256, rsvd := r.reserve 2 (byteCountReserved v) } else s
  | _ => s

/-- A region entry is written and started. -/
def State.loadRegion (s : State) (x : Nat × Word × Word × Word) : Option State :=
  let n := x.1
  let s1 := (((s.regionWrite n 0x08 x.2.2.1).regionWrite n 0x10 x.2.2.2).regionWrite n 0x00 x.2.1)
  if bit x.2.1 63 then
    let s2 := s1.regionStart n
    if (s2.region n).fsm.st = .on then some s2 else none
  else some s1

/-- The half of a mesh node. -/
def nodeEast (n : Nat) : Bool := if n < 3456 then decide (36 ≤ n % 72) else if n < 3552 then siteEast (nodeMem n).1 else portEast (n - 3552)

/-! ## Re-placement of route programs (R30, R394) -/

/-- A FWD entry that passes on what an entry of the feeding port sends; LOOP and STOP stay. -/
def asFwd (w : Word) : Word := if schedKind w = 2 then pack [(1, 62, 2), (schedOut w, 48, 10), (fld w 0 8, 0, 8)] else w

/-- A program without its L entries. -/
def dropL (p : Config.Program) : Config.Program :=
  ((p.1.filter fun e => stabIn e.2 != 4).map fun e => (e.1, e.2 &&& ~~~(BitVec.ofNat 64 (2 ^ 59))), p.2.filter fun e => e.1 / 256 != 4)

/-- The program of a node among these sections. -/
def progAt (xs : List Section) (n : Nat) : Config.Program :=
  match xs with
  | [] => ([], [])
  | .route m a b :: r => if m = n then (a, b) else progAt r n
  | _ :: r => progAt r n

/-- The nodes that have a program. -/
def routeNodes (xs : List Section) : List Nat := xs.filterMap fun x => match x with | .route n _ _ => some n | _ => none

/-- What a router that only passes on sends from input `inp` to the port across: the feeding port's schedule as FWD entries, and a stream-table entry for each stream. -/
def passFrom (xs : List Section) (n inp : Nat) : List Word × List (Nat × Word) :=
  match meshPrev n inp with
  | none => ([], [])
  | some (m, q) =>
    let out := (inp + 2) % 4
    let es := ((progAt xs m).2.filter fun e => e.1 / 256 == q).map fun e => (256 * out + e.1 % 256, asFwd e.2)
    let streams := ((es.filter fun e => schedKind e.2 == 1).map fun e => schedStream e.2).eraseDups
    (streams.map fun st => pack [(1, 63, 1), (inp, 60, 3), (2 ^ out, 55, 5), (st, 0, 10)], es)

/-- The program of an idle spare's router: what its row sends east and west passes through it. -/
def passProgram (xs : List Section) (n : Nat) : Config.Program :=
  let a := passFrom xs n 3
  let b := passFrom xs n 1
  (((a.1 ++ b.1).zipIdx.map fun x => (x.2, x.1)).take 128, a.2 ++ b.2)

/-- The spare code of a router's row. -/
def State.rowOf (s : State) (n : Nat) : Nat := s.spare (physOf n / 72) (physOf n / 9 % 8)

/-- The route sections as the loader places them (R394): each section names a logical router at its home position, or an endpoint; rows whose spare stands in are rewritten; L entries go where the core is disabled or displaced; idle spares pass on. -/
def State.replaced (s : State) (xs : List Section) : List Section :=
  let placed := xs.map fun x => match x with
    | .route n a b => if n < 3456 ∧ 8 ≤ s.rowOf n ∧ s.coreAtNode n = none then let p := dropL (a, b); .route n p.1 p.2 else x
    | _ => x
  let bent := ((routeNodes xs).filter fun n => decide (n < 3456 ∧ s.rowOf n < 8)).map fun n => n - n % 72 % 9
  let rewritten := bent.eraseDups.flatMap fun n =>
    let code := s.rowOf n
    let ps := Config.displaced code ((List.range 8).map fun i => progAt xs (n + i))
    (List.range 9).map fun i => let p := ps.getD i ([], []); let q := if i = code then dropL p else p; Section.route (n + i) q.1 q.2
  let ys := placed.filter (fun x => match x with | .route n _ _ => decide (3456 ≤ n ∨ 8 ≤ s.rowOf n) | _ => true) ++ rewritten
  let feeds := (routeNodes ys).flatMap fun n => (progAt ys n).2.filterMap fun e => (meshNext n (e.1 / 256)).map Prod.fst
  let idle := (feeds.filter fun n => decide (n < 3456 ∧ n % 72 % 9 = 8 ∧ 8 ≤ s.rowOf n)).eraseDups
  ys ++ idle.map fun n => let p := passProgram ys n; .route n p.1 p.2

/-- A section names a router that is no logical router: a spare's. -/
def Section.atSpare : Section → Bool
  | .route n _ _ => decide (n < 3456 ∧ n % 72 % 9 = 8)
  | _ => false

/-- A route program is placed and its router started (R395); in an off half only an empty one, which leaves the router OFF (R410). -/
def State.loadRoute (s : State) (n : Nat) (stab sched : List (Nat × Word)) : Option State :=
  let r := s.router n
  if !s.nodePresent n ∨ 3560 ≤ n ∨ r.fsm.st ≠ .off then none
  else if !(s.half (nodeEast n)).on then (if stab = [] ∧ sched = [] then some s else none)
  else
    let r1 : Router := { r with stab := stab.foldl (fun m p => cset 0 m (p.1 % 128) p.2) [], sched := sched.foldl (fun m p => cset 0 m (p.1 % 1280) p.2) [] }
    let s1 := ((s.setRouter n r1).routerEnable n true).routerStart n
    if (s1.router n).fsm.st = .on then some s1 else none

/-- Writing VP of both halves (Table 21-6). -/
def vpOk (v : Nat) : Bool := [0, 600, 650, 700, 750, 800, 850].contains v
def State.setVp (s : State) (v : Nat) : State :=
  if vpOk v then { s with pwr := { s.pwr with w := { s.pwr.w with vp := v }, e := { s.pwr.e with vp := v } } } else { s with pwr := { s.pwr with werr := true } }

/-- Placing one section; none when the placement is refused (R550). -/
def State.place (s : State) (x : Section) : Option State :=
  match x with
  | .image l words nx =>
    if s.coreOk l then
      let c := s.coreAt l
      some (s.setCore l { c with imem := words.foldl (fun m w => mset m w.1 w.2) c.imem, imark := words.foldl (fun m w => mdel m w.1) c.imark, nxmap := nx })
    else none
  | .route n stab sched => s.loadRoute n stab sched
  | .config l regs notice =>
    if s.coreOk l then
      let s1 := regs.foldl (fun s r => s.loadReg l r) s
      if s1.ringsRefused l regs then none
      else some { s1 with job := { s1.job with notice := notice.foldl (fun m p => mset m (16 * l + p.1 % 16) p.2) s1.job.notice } }
    else none
  | .region regs => regs.foldl (fun (o : Option State) r => o.bind fun s => s.loadRegion r) (some s)
  | .pace mode per maint _ _ off vp =>
    some (({ s with job := { s.job with paced := mode, per := per, maint := maint, t0off := off } } : State).setVp vp)
  | .part bar lines =>
    let absent (v : Word) : Bool := (bit v 21 && !s.portPresent (fld v 18 3)) || (List.range 8).any fun k => inMask (fld v 8 8) k && !s.portPresent k
    if (bar.all fun p => s.coreOk p.1) ∧ !lines.any (fun p => absent p.2) then
      let s1 := bar.foldl (fun s p => s.setCore p.1 { s.coreAt p.1 with part := p.2 }) s
      some (lines.foldl (fun s p => s.blxWrite p.1 p.2) s1)
    else none
  | .seed k =>
    some { s with cores := s.cores.map fun p => (p.1, if p.2.held then p.2 else { p.2 with vxe := { p.2.vxe with key := k + BitVec.ofNat 64 p.1 } }) }
  | .threads l ctl =>
    if s.coreOk l then
      let s1 := s.setCore l (ctl.foldl (fun c p => c.updThread p.1 fun th => { th with entry := addrField p.2, startS := bit p.2 2, disp := bit p.2 1 }) (s.coreAt l))
      some { s1 with job := { s1.job with toStart := s1.job.toStart ++ ctl.map fun p => (l, p.1) } }
    else none
  | .service ls => if ls.all fun l => s.coreOk l then some { s with job := { s.job with service := ls } } else none

/-- The sections that name this chip. -/
def State.mine (s : State) (secs : List Sec) : List Section := (secs.filter fun x => x.chip == s.chipId).map Sec.sec

/-- The pace registers of the cores that a type-8 section names (log entry 31). -/
def State.loadPace (s : State) (x : Section) : State :=
  match x with
  | .pace _ per maint tmask bpp _ _ =>
    ((s.job.toStart.map Prod.fst).eraseDups).foldl (fun s l =>
      [(0x2B10, BitVec.ofNat 64 per), (0x2B18, BitVec.ofNat 64 maint), (0x2B20, tmask.setWidth 64), (0x2B28, bpp)].foldl
        (fun s (r : Nat × Word) => s.onCore l fun e c => ioWrite e c none r.1 r.2) s) s
  | _ => s

/-! ## Static channels (R357) -/

/-- The static outbound endpoints that the sections configure. -/
def Section.statics : Section → List (Nat × Nat)
  | .config l regs _ => (regs.filter fun r => decide (0x1400 ≤ r.1 ∧ r.1 < 0x1C00 ∧ r.1 % 32 = 0) && !bit r.2 59).map fun r => (l, (r.1 - 0x1400) / 32)
  | _ => []

/-- What the reader answers to an open request within the chip. -/
def answerOf : List Emit → Option SvcBody
  | [] => none
  | .svc _ _ b :: _ => some b
  | _ :: r => answerOf r

/-- Opening one static channel: at once within the chip, else by a request that the load awaits. -/
def State.openStatic (s : State) (x : Nat × Nat) : State :=
  let l := x.1
  let n := x.2
  let h := (s.coreAt l).choAt n
  if h.dchip = s.chipId ∨ h.dchip = 4095 then
    let s1 := s.setCore l (choOpen (s.env l) (s.coreAt l) n).1
    if s1.coreOk h.dlcid then
      let r := openArrives (s1.env h.dlcid) (s1.coreAt h.dlcid) h.dchi s1.chipId l n h.dyn
      let s2 := s1.setCore h.dlcid r.1
      match answerOf r.2 with
      | some (.grant cho ep sk slot u) => s2.setCore l (grantArrives (s2.env l) (s2.coreAt l) cho ep sk slot u)
      | _ => s2.setCore l (refusalArrives (s2.coreAt l) n 3)
    else s1.setCore l (refusalArrives (s1.coreAt l) n 4)
  else
    let s1 := s.onCore l fun e c => choOpen e c n
    { s1 with job := { s1.job with opening := s1.job.opening ++ [x] } }

/-- The state of a static channel's sender. -/
def State.choSt (s : State) (x : Nat × Nat) : EnSt := ((s.coreAt x.1).choAt x.2).fsm.st

/-- The load ends LOADED, every thread HALT, or ENDED. -/
def State.loadEnd (s : State) (status : Nat) (n : Nat) : State :=
  let s1 : State := { s with job := { s.job with opening := [] } }.resumeHalves
  if status = 0 then
    let s2 : State := { s1 with cores := s1.cores.map fun p => (p.1, let e := s1.env p.1; (List.range e.nthr).foldl (fun c t => thrUnpark e c t) p.2) }
    (s2.setJob 2).complete s2.job.loadTag 1 0 (BitVec.ofNat 64 n)
  else (s1.setJob 4).complete s1.job.loadTag 1 status 0

/-- The MC waits until every static channel shows OPEN; one that shows CLOSED fails the load (R357). -/
def State.loadPoll (s : State) : State :=
  if s.hif.job = 1 ∧ s.job.opening ≠ [] then
    if s.job.opening.any fun x => s.choSt x == .off then s.loadEnd 6 0
    else if s.job.opening.all fun x => s.choSt x == .on then s.loadEnd 0 s.job.nsec
    else s
  else s

/-- The checks and the placement of R550, in order. -/
def State.loadBody (s : State) (n : Nat) (data : Option (List Byte)) (secs : List Sec) : State :=
  match data with
  | none => s.loadEnd 7 0
  | some b =>
    let s1 := s.extend 5 (Config.sha256 b)
    if !s1.headerGood b n ∨ !tableGood b n secs then s1.loadEnd 3 0
    else if numAt b 10 2 = 1 ∧ loadDigest b ≠ BitVec.ofNat 256 (numAt b 96 32) then s1.loadEnd 4 0
    else
      let mine := s1.replaced (s1.mine secs)
      if (s1.mine secs).any Section.atSpare then s1.loadEnd 5 0
      else match mine.foldl (fun (o : Option State) x => o.bind fun s => s.place x) (some s1) with
      | none => s1.loadEnd 5 0
      | some s2 =>
        let s3 := mine.foldl State.loadPace s2
        if (!s3.pwr.w.on ∧ s3.halfCause false ≠ 0) ∨ (!s3.pwr.e.on ∧ s3.halfCause true ≠ 0) then s3.loadEnd 5 0
        else
          let statics := mine.flatMap Section.statics
          let s4 := statics.foldl State.openStatic { s3 with job := { s3.job with nsec := (s1.mine secs).length } }
          if statics.any fun x => s4.choSt x == .off then s4.loadEnd 6 0
          else if s4.job.opening = [] then s4.loadEnd 0 s4.job.nsec
          else s4

/-- LOAD: its own state is JOB LOADING (R550, Table 20-8). While a power request is in progress it waits (R410). -/
def State.load (s : State) (data : Option (List Byte)) (secs : List Sec) : State :=
  match s.takeCmd 1 with
  | none => s
  | some (c, s1) =>
    if s.pwr.busy then s
    else if !c.plain 2 ∨ c.word 2 = 0 then s1.complete c.tag 1 1 0
    else if s1.hif.dev ≠ 1 ∨ s1.hif.job ≠ 0 ∨ s1.fuses.lc = 0 then s1.complete c.tag 1 2 0
    else (({ s1 with job := { started := s1.job.started, loadTag := c.tag } } : State).setJob 1).loadBody (c.word 2).toNat data secs

/-! ## START (R552) -/

/-- A register written in every core of the type-8 sections. -/
def State.eachCore (s : State) (off : Nat) (v : Word) : State :=
  ((s.job.toStart.map Prod.fst).eraseDups).foldl (fun s l => s.onCore l fun e c => ioWrite e c none off v) s

/-- SC.CLR in every core that is out of core reset, as the loader writes it at job start (R323). -/
def State.clearCounters (s : State) : State :=
  { s with cores := s.cores.map fun p => (p.1, if p.2.held then p.2 else p.2.scClear (BitVec.allOnes 48)) }

/-- START is accepted, the counters are cleared, and PACE.T0 written, or refused. -/
def State.start (s : State) : State :=
  match s.takeCmd 2 with
  | none => s
  | some (c, s1) =>
    let t := (c.word 1).toNat
    if !c.plain 1 then s1.complete c.tag 2 1 0
    else if s1.hif.dev ≠ 1 ∨ s1.hif.job ≠ 2 then s1.complete c.tag 2 2 0
    else if t ≠ 0 ∧ t < s1.tb + 50000 then s1.complete c.tag 2 8 0
    else
      let at_ := if t = 0 then s1.tb + 50000 else t
      let t0 := at_ + s1.job.t0off
      let s2 : State := { s1 with job := { s1.job with start := some (c.tag, at_), t0 := t0, started := true } }
      let s3 := s2.clearCounters.eachCore 0x2B08 (BitVec.ofNat 64 t0)
      if s3.job.paced then s3.eachCore 0x2B00 1 else s3

/-- START_TICK: the threads start, and START completes with JOB RUNNING. -/
def State.startTick (s : State) : State :=
  match s.job.start with
  | none => s
  | some (tag, at_) =>
    if s.tb < at_ then s
    else
      let s1 := s.job.toStart.foldl (fun s x => s.onLive' x.1 fun e c => thrStart e c x.2) s
      (({ s1 with job := { s1.job with start := none } } : State).setJob 3).complete tag 2 0 (BitVec.ofNat 64 at_)

/-! ## RESET (R554, R581) -/

/-- The first RESET command, when its bit 0 is the one wanted. -/
def State.nextReset (s : State) (warm : Bool) : Option (HCmd × State) :=
  match s.takeCmd 5 with
  | some (c, s1) => if bit (c.word 1) 0 = warm then some (c, s1) else none
  | none => none

/-- A malformed RESET completes with status 1. -/
def HCmd.resetGood (c : HCmd) : Bool := c.plain 1 && decide (fld (c.word 1) 1 63 = 0)

/-- RESET_JOB_CLEAR: the running command ends, JOB goes to CLEARING and every cluster is reset. -/
def State.resetClear (s : State) : State :=
  match s.nextReset false with
  | none => s
  | some (c, s1) =>
    if !c.resetGood then s1.complete c.tag 5 1 0
    else if s1.hif.dev = 3 then s1.complete c.tag 5 2 0
    else
      let s2 := s1.cutShort.setJob 5
      let s3 := (List.range 48).foldl (fun s n => if s.clPresent n ∧ (s.cl n).st ≠ .off then s.clusterReset n else s) s2
      ({ s3 with hif := { s3.hif with clearTags := s3.hif.clearTags ++ [c.tag] } }).stopRouters

/-- A router or endpoint OFF with an empty program; its own control and counters stay. -/
def Router.emptied (r : Router) : Router :=
  { wdog := r.wdog, werr := r.werr, fail := r.fail, stall := r.stall, ports := r.ports.map fun q => (q.1, { flits := q.2.flits, sticky := q.2.sticky }) }

/-- JOB_CLEAR_COMPLETE: HBM wiped, routers and region entries OFF, HWT empty, JOB CLEAN. -/
def State.clearDone (s : State) : State :=
  if s.hif.job ≠ 5 then s
  else
    let s1 : State := { s with
      routers := s.routers.map fun p => (p.1, p.2.emptied)
      wires := []
      regions := []
      hbm := s.hbm.map fun p => (p.1, { p.2 with mem := [], mark := [] })
      mc := { s.mc with fails := [] }
      job := { started := s.job.started }
      hif := { s.hif with hwt := [] } }
    let s2 := s1.setJob 0
    s2.hif.clearTags.foldl (fun t g => t.complete g 5 0 0) { s2 with hif := { s2.hif with clearTags := [] } }

/-- RESET_WARM: phases 2 to 8 run, and the command completes when DEV is READY or HELD again. -/
def State.resetWarm (s : State) : State :=
  match s.nextReset true with
  | none => s
  | some (c, s1) =>
    if !c.resetGood then s1.complete c.tag 5 1 0
    else
      let s2 := s1.cutShort
      ({ s2 with hif := { s2.hif with warmTags := s2.hif.warmTags ++ s2.hif.clearTags ++ [c.tag], clearTags := [] } } : State).warmReset

/-! ## The commands -/

/-- LOAD (R550). -/
def execLoad (data : Option (List Byte)) (secs : List Sec) (s : State) : Out := .next (s.load data secs)
/-- START (R552). -/
def execStart (s : State) : Out := .next s.start
/-- START_TICK (R552). -/
def execStartTick (s : State) : Out := .next s.startTick
/-- RESET_JOB_CLEAR (R554). -/
def execResetJobClear (s : State) : Out := .next s.resetClear
/-- JOB_CLEAR_COMPLETE (R554). -/
def execJobClearComplete (s : State) : Out := .next s.clearDone
/-- RESET_WARM (R581). -/
def execResetWarm (s : State) : Out := .next s.resetWarm

end Sys2Proof.Machine
end

