-- ==== Sys2Proof/Machine/Power.lean ====
section
/-! DEFINITION. Power: the governor, THROTTLE_N and THERMTRIP_N, wear, and powering a half off and on (spec 21 R612 to R624; 12 R408 to R410; 24 R674). -/

namespace Sys2Proof.Machine

/-! ## The governor (R612 to R618, Table 21-2) -/

/-- F of a half (R613). -/
def State.floorOf (s : State) (h : Half) : Nat := if h.vp ≠ 0 ∧ (s.hif.job = 2 ∨ s.hif.job = 3) then h.vp + h.wear else 550

/-- U of a half (R613). -/
def State.upperOf (s : State) (h : Half) : Nat := max (h.tgt + h.wear) (s.floorOf h)

/-- The setpoint after a window: `ovr` when a limit is exceeded, `up` when the table raises it, `deep` when POWER_OVER has stayed at 1 for 10 ms (R613, R617, R618). -/
def State.stepHalf (s : State) (ovr up deep : Bool) (h : Half) : Half :=
  let t := if ovr then h.set - 5 else if up then h.set + 5 else h.set
  let f := s.floorOf h
  let u := s.upperOf h
  { h with set := if ovr ∧ deep then max 550 (min u t)
                  else if s.pwr.floorbrk ∧ h.set < f then (if ovr then h.set else min u t)
                  else max f (min u t) }

/-- GOVERNOR_WINDOW_END: the mean power that the regulators report, in mW, and the hottest sensor. -/
def State.governor (s : State) (mw hot : Nat) : State :=
  let k := s.tb / 1000000
  if s.dead ∨ k ≤ s.pwr.ended then s
  else
    let p := s.pwr
    let mean := mw + p.fixed * 1000
    let overCap := decide (p.cap * 1000 < mean)
    let overT := decide (p.tlim < hot)
    let ovr := overCap || overT
    let up := !ovr && decide (mean * 100 < 97 * (p.cap * 1000)) && decide (hot + 3 ≤ p.tlim)
      && (decide (p.w.set < s.upperOf p.w) || decide (p.e.set < s.upperOf p.e))
    let deep := s.pacedJob && p.pover && decide (p.overAt + 10000000 ≤ k * 1000000)
    let w := s.stepHalf ovr up deep p.w
    let e := s.stepHalf ovr up deep p.e
    let below := decide (w.set < s.floorOf w) || decide (e.set < s.floorOf e)
    let atFloor := decide (p.w.set ≤ s.floorOf p.w) && decide (p.e.set ≤ s.floorOf p.e)
    let reached := decide (s.floorOf p.w ≤ p.w.set) && decide (s.floorOf p.e ≤ p.e.set)
    let rise := s.pacedJob && ovr && atFloor && !p.pover
    let clear := p.pover && !ovr && reached
    let cause := b2n overCap + 2 * b2n overT
    let brk := below && ((ovr && deep) || p.floorbrk)
    let s1 := { s with pwr := { p with ended := k, win := (k - 1) % 2 ^ 32, mw := mean % 2 ^ 32, hot := min 255 hot, w := w, e := e, floorbrk := brk
                                       pover := (p.pover || rise) && !clear, ocause := if rise then cause else if clear then 0 else p.ocause
                                       overAt := if rise then k * 1000000 else p.overAt } }
    let s2 := if rise then s1.mcRecord 0x17 0 cause (min w.set e.set) else s1
    let s3 := if brk ∧ !p.floorbrk then s2.mcRecord 0x17 2 p.ocause (min w.set e.set) else s2
    if rise ∨ clear then s3.sensorEvent 1 (b2n rise) else s3

/-- THROTTLE_N: every engine at the duty of PWR.THR (R619). -/
def State.throttle (s : State) (on : Bool) : State := { s with pins := { s.pins with throttle := on } }

/-- THERMTRIP: the pin, both regulator enables, any half-off sequence, and DEV FAILED (R620, R674, Table 21-5). -/
def State.thermtrip (s : State) : State :=
  let p := s.pwr
  let s1 := { s with pins := { s.pins with thermtrip := true }
                     pwr := { p with w := { p.w with vren := false, drain := none }, e := { p.e with vren := false, drain := none }, busy := false } }
  s1.fatal 3 p.hot

/-- The least multiple of 5 not below. -/
def ceil5 (n : Nat) : Nat := (n + 4) / 5 * 5

/-- AGING_MEASURE: the offset that a half needs, in mV (R621, R622). -/
def State.aging (s : State) (east : Bool) (mv : Nat) : State :=
  if s.mc.drip.st = .on ∧ s.mc.dripFlags.getLsbD 0 ∧ s.maintNow then
    let w := max (s.half east).wear (min 40 (ceil5 mv))
    let ovr := decide (40 < mv)
    let p := { s.pwr with wearex := s.pwr.wearex || ovr }
    if east then { s with pwr := { p with e := { p.e with wear := w } }, nor := { s.nor with wearE := w, overE := s.nor.overE || ovr } }
    else { s with pwr := { p with w := { p.w with wear := w } }, nor := { s.nor with wearW := w, overW := s.nor.overW || ovr } }
  else s

/-! ## Halves off and on (R623, R624, Table 21-4) -/

/-- A unit of this chip lies in a half. -/
def State.unitIn' (s : State) (east : Bool) (u : Nat) : Bool := unitChip u == s.chipId && unitEast u == some east

/-- A cluster of the half goes to OFF: its cores parked and reset. -/
def State.clusterOff (s : State) (n : Nat) : State :=
  if s.clPresent n then
    ((s.clCores n).foldl (fun s l => (s.resetCore l).holdCore l true) s).setCl n { s.cl n with en := false, st := .off, pend := false }
  else s

/-- A port of the half goes to OFF (R479). -/
def State.portHalfOff (s : State) (k : Nat) : State :=
  let p := s.port k
  if p.fsm.st = .off then s
  else s.portOff k { p.fsm with en := false, st := .off, pend := false } 1 2 p.heldStreams

/-- A stack of the half goes to OFF and loses its contents. -/
def State.stackHalfOff (s : State) (h : Nat) : State :=
  s.setStk h { s.stk h with fsm := { (s.stk h).fsm with en := false, st := .off, pend := false }, mem := [], mark := [], temp := 0, doubled := false }

/-- The drain has ended: 20 µs have passed, or every packet that was in the half when it began has been acknowledged or given up; what the Col holds is not in the half (R409). -/
def State.drained (s : State) (east : Bool) : Bool :=
  match (s.half east).drain with
  | none => false
  | some t => decide (t + 20000 ≤ s.tb)
      || s.svc.out.all fun p => !((s.unitIn' east p.dst || s.unitIn' east p.src) && decide (p.born < t)) || s.colHolds p

/-- The service network without what lies in a half; packets into it are answered with unit off (R409). -/
def State.cutSvc (s : State) (east : Bool) : State :=
  let into := s.svc.out.filter fun p => s.unitIn' east p.dst && !s.unitIn' east p.src
  let s1 := { s with svc := { s.svc with out := s.svc.out.filter fun p => !s.unitIn' east p.src && !s.unitIn' east p.dst
                                         inbox := s.svc.inbox.filter fun m => !s.unitIn' east m.unit } }
  into.foldl (fun s p => s.svcBounce p 5) s1

/-- HALF_OFF_DRAIN_END: steps 3 to 6 of Table 21-4. -/
def State.halfDown (s : State) (east : Bool) : State :=
  let s1 := (List.range 48).foldl (fun s n => if clEast n = east then s.clusterOff n else s) s
  let s2 := (List.range 8).foldl (fun s k => if portEast k = east then s.portHalfOff k else s) s1
  let s3 := (List.range 6).foldl (fun s h => if siteEast h = east then s.stackHalfOff h else s) s2
  let s4 : State := { s3 with routers := s3.routers.map fun p => (p.1, if nodeEast p.1 = east then p.2.emptied else p.2)
                              wires := s3.wires.filter fun p => nodeEast (p.1 / 8) != east }
  let s5 := s4.setHalf east { s4.half east with on := false, vren := false, drain := none }
  ({ s5 with pwr := { s5.pwr with busy := false } } : State).cutSvc east

def State.drainEnd (s : State) : State :=
  if s.dead then s
  else if s.drained false then s.halfDown false
  else if s.drained true then s.halfDown true
  else s

/-- HALF_POWER_GOOD (R624). -/
def State.powerGood (s : State) (east : Bool) : State :=
  let h := s.half east
  if s.pwr.busy ∧ h.vren ∧ !h.on ∧ !s.halfAsked east then
    ({ s with pwr := { s.pwr with busy := false } } : State).setHalf east { h with on := true }
  else s

/-! ## The commands -/

/-- HALF_OFF_REQUEST (R623). -/
def execHalfOffRequest (east : Bool) (s : State) : Out := .next (s.halfOff east)
/-- HALF_OFF_DRAIN_END (R409, R623). -/
def execHalfOffDrainEnd (s : State) : Out := .next s.drainEnd
/-- HALF_ON_REQUEST (R624). -/
def execHalfOnRequest (east : Bool) (s : State) : Out := .next (s.halfOn east)
/-- HALF_POWER_GOOD (R624). -/
def execHalfPowerGood (east : Bool) (s : State) : Out := .next (s.powerGood east)
/-- GOVERNOR_WINDOW_END (R612). -/
def execGovernorWindowEnd (mw hot : Nat) (s : State) : Out := .next (s.governor mw hot)
/-- THROTTLE_ASSERT (R619). -/
def execThrottleAssert (s : State) : Out := .next (s.throttle true)
/-- THROTTLE_RELEASE (R619). -/
def execThrottleRelease (s : State) : Out := .next (s.throttle false)
/-- THERMTRIP (R620). -/
def execThermtrip (s : State) : Out := .next s.thermtrip
/-- AGING_MEASURE (R621). -/
def execAgingMeasure (east : Bool) (mv : Nat) (s : State) : Out := .next (s.aging east mv)

end Sys2Proof.Machine
end

