-- ==== Sys2Proof/Machine/Errors.lean ====
section
/-! DEFINITION. Errors in service: failed streams at their sinks, record forwarding, the Drip's tasks, cores and clusters that fail, and fatal errors (spec 22 R626 to R647). -/

namespace Sys2Proof.Machine

/-! ## Records on their way to the log ring (R635, R638) -/

/-- The source of a queue's own records: the cluster, or the MC. -/
def queueRec (q : Nat) : ErrRec := if q < 48 then { cls := 0x1C, sev := 0, ukind := 2, lunit := q } else { cls := 0x1C, sev := 0, ukind := 7 }

/-- An entry is free: the RECLOST record takes it when drops are unreported (R638, Table 22-11). -/
def ErrQ.reclost (x : ErrQ) (q tb chip : Nat) : ErrQ :=
  if x.unrep = 0 then x
  else
    let r := queueRec q
    let recs := x.recs ++ [{ tb := tb, r := r, lost := min 65535 x.unrep, chip := chip }]
    { x with recs := recs, unrep := 0, peak := max x.peak recs.length, cnt := mupd 0 x.cnt (cntKey r.source r.cls) fun v => min (2 ^ 32 - 1) (v + 1) }

/-- RECORD_FORWARD: the oldest record of a queue goes to the log ring; the MC takes none after it has failed. -/
def State.recordForward (s : State) (q : Nat) : State :=
  let x := mget {} s.errs q
  match x.recs with
  | [] => s
  | r :: rest =>
    if s.dead then s
    else ({ s with errs := mset s.errs q (({ x with recs := rest } : ErrQ).reclost q s.tb s.chipId) } : State).logWrite r

/-! ## Failed streams at their sinks (R632, Table 22-3) -/

/-- The notice thread of a ring, thread 0 unless the loadable names one. -/
def State.noticeThread (s : State) (l ring : Nat) : Nat := mget 0 s.job.notice (16 * l + ring)

/-- The stream failed fault at a ring's notice thread. -/
def State.streamFault (s : State) (l ring st : Nat) : State :=
  s.onCore' l fun e c =>
    let t := s.noticeThread l ring
    if t < e.nthr then c.updThread t fun th => th.deliver { code := 0x20, sub := st % 256 } else c

/-- The static CHI whose sender sends on a stream: a sender on this chip shows it in its CHO, another chip's does not (log entry 4). -/
def State.chiOfStream (s : State) (l st : Nat) : Option Nat :=
  let c := s.coreAt l
  (List.range 64).find? fun m =>
    let x := c.chiAt m
    x.fsm.st == .on && !x.dyn && (match x.peer with
      | some p =>
        if p.chip = s.chipId then ((s.coreAt p.lcid).choAt p.cho).stream == st && !((s.coreAt p.lcid).choAt p.cho).dyn
        else Config.messageStream l m == st
      | none => false)

/-- The static CHO whose credit returns and close requests come on a stream (log entry 4). -/
def State.choOfStream (s : State) (l st : Nat) : Option Nat :=
  let c := s.coreAt l
  (List.range 64).find? fun n =>
    let x := c.choAt n
    (x.fsm.st == .on || x.fsm.st == .stopping) && !x.dyn && Config.creditStream x.dlcid x.dchi == st

/-- Every answer that a transfer awaits on a stream has failed: its channel aborts with cause 6. -/
def dmaStreamFail (e : Env) (c : Core) (ch : Nat) : Core × List Emit :=
  let bad (ps : List Piece) : List Piece := ps.map fun p => if p.done ∨ p.bad ≠ 0 then p else { p with bad := 6 }
  let c1 := c.updRun ch fun r => { r with abort := if r.abort.isSome then r.abort else some 6
                                          bursts := r.bursts.map fun b => { b with reads := bad b.reads, writes := bad b.writes } }
  dmaPump e c1 ch

/-- A sink in a core: the action of Table 22-3 and the record. -/
def State.coreSink (s : State) (l n st unit : Nat) : State :=
  let c := s.coreAt l
  let rec8 (s : State) (row : Nat) : State := s.coreRecord l 0 0x08 2 row unit
  match boundStream c st with
  | some ring => rec8 ((s.streamFault l ring st).failStream n (st + 1)) 0
  | none =>
    match s.chiOfStream l st with
    | some m => rec8 ((s.onCore l fun e c => chiClose e c m true).streamFault l (c.chiAt m).ring st) 1
    | none =>
      match s.choOfStream l st with
      | some k => rec8 (s.onCore l fun e c => choOwnClear e c k 4) 2
      | none =>
        let chs := streamChannels (s.env l) c st
        if chs.isEmpty then s else rec8 (chs.foldl (fun s ch => s.onCore l fun e c => dmaStreamFail e c ch) s) 3

/-- A sink of a failed stream. -/
def State.sinkFails (s : State) (n st unit : Nat) : State :=
  if n < 3456 then
    match s.coreAtNode n with
    | some l => s.coreSink l n st unit
    | none => s
  else (s.failStream n (st + 1)).routerRecord n 0x08 2 4 unit

/-- An item of the stream is complete at a sink and has not been delivered: it comes before the failure (Table 22-11). -/
def State.lastGood (s : State) (n st : Nat) : Bool := (s.wire n 5).any fun f => f.tr && f.stream == st

/-- STREAM_FAIL_NOTIFY: the MC fails the oldest reported stream at each of its sinks. -/
def State.streamNotify (s : State) : State :=
  match s.mc.fails with
  | [] => s
  | f :: rest =>
    let sinks := if f.here then [(f.node, f.stream)] else s.sinks 4096 [(f.node, f.stream)]
    if s.dead ∨ (!f.here ∧ sinks.any fun x => s.lastGood x.1 x.2) then s
    else sinks.foldl (fun s x => s.sinkFails x.1 x.2 (nodePunit f.node)) { s with mc := { s.mc with fails := rest } }

/-! ## Units that fail in service (R646, R647) -/

/-- Streams that leave the mesh into the core at a node. -/
def Router.intoCore (r : Router) : List Nat := (r.stab.filter fun q => stabV q.2 && inMask (stabOut q.2) 4).map fun q => stabStream q.2

/-- The MC fails every stream whose sink is core l. -/
def State.failInto (s : State) (l : Nat) : State :=
  let n := nodeOf (s.phys l)
  (s.router n).intoCore.foldl (fun s st => s.failStream n st) s

/-- A core fails in service (R646). -/
def State.coreFail (s : State) (l cls key detail : Nat) : State :=
  let p := s.phys l
  let s1 := ((s.resetCore l).holdCore l true).coreRecord l 0 cls 2 key detail
  let s2 := (s1.failInto l).fmapAdd [entryCore p]
  { s2 with brg := { s2.brg with bad := s2.brg.bad ++ [p] } }

/-- An idle spare fails (R642). -/
def State.spareFail (s : State) (p key detail : Nat) : State :=
  let s1 := s.record { cls := 0x18, sev := 2, ukind := 0, punit := punitOf p, key := key, detail := detail }
  let s2 := s1.fmapAdd [entryCore p]
  { s2 with brg := { s2.brg with bad := s2.brg.bad ++ [p] } }

/-- A cluster whose reset does not restore its CC (R647). -/
def State.clusterFail (s : State) (n : Nat) : State :=
  let s1 := s.clusterEnable n false
  let ls := s1.clCores n
  let s2 := ls.foldl (fun s l => (((s.resetCore l).holdCore l true).failInto l)) s1
  let s3 := s2.fmapAdd ((List.range 72).map fun i => entryCore (72 * n + i))
  { s3 with brg := { s3.brg with badClusters := s3.brg.badClusters ||| BitVec.ofNat 48 (2 ^ n) } }

/-- CC_HEARTBEAT_MISS: three misses fail the cluster; the MC writes the record, into its own queue. -/
def State.heartbeat (s : State) (n pc : Nat) (restored : Bool) : State :=
  if s.dead ∨ !s.clPresent n then s
  else
    let k := mget 0 s.mc.beats n + 1
    if k < 3 then { s with mc := { s.mc with beats := mset s.mc.beats n k } }
    else
      let s1 := (s.recordAt 48 { cls := 0x1E, sev := 2, ukind := 2, lunit := n, detail := pc }).clusterReset n
      if restored then s1 else s1.clusterFail n

/-! ## The Drip (R640 to R645, Table 22-7) -/

/-- A task of the Drip may run: DRIP.CTL is ON, its bit is set, and in paced mode the period is one of maintenance. -/
def State.drips (s : State) (b : Nat) : Bool := s.mc.drip.st == .on && s.mc.dripFlags.getLsbD b && s.maintNow && !s.dead

/-- A write of DRIP.CTL.EN. -/
def State.dripEnable (s : State) (v : Bool) : State := { s with mc := { s.mc with drip := s.mc.drip.write v } }

/-- DRIP_START: refused unless DEV is READY or HELD. -/
def State.dripStart (s : State) : State :=
  { s with mc := { s.mc with drip := if s.hif.dev = 1 ∨ s.hif.dev = 2 then s.mc.drip.startOk else s.mc.drip.startRefused } }

/-- DRIP_STOP_COMPLETE. -/
def State.dripStop (s : State) : State := { s with mc := { s.mc with drip := s.mc.drip.stopDone } }

/-- The physical core of an idle spare of a cluster (code 8). -/
def State.idleSpare (s : State) (cl : Nat) : Option Nat :=
  ((List.range 8).find? fun r => s.spare cl r == 8 && !s.brg.bad.contains (cl * 72 + r * 9 + 8)).map fun r => cl * 72 + r * 9 + 8

/-- What a kernel leaves in the test tile and the test accumulator, which nothing reads (R233, R642): free bytes. -/
def Mxe.afterKernel (m : Mxe) (phys : Nat) : Mxe :=
  { m with testTile := wrBytes [] 0 ((List.range 2048).map (Config.kernelByte phys)),
           testAcc := wrBytes [] 0 ((List.range 4096).map fun i => Config.kernelByte phys (2048 + i)) }

/-- ENGINE_SELFTEST: one run of the kernel, its signature word, and whether it mismatches here and on the idle spare (R642). -/
def State.selftest (s : State) (l : Nat) (vxe bad spareBad : Bool) (word : Nat) : State :=
  let c := s.coreAt l
  let k := b2n vxe
  let key := 2 * s.phys l + k
  let s0 := if vxe then s else s.onCore' l fun _ x => { x with mxe := x.mxe.afterKernel (s.phys l) }
  if !s.drips 4 ∨ !s.present l ∨ c.held ∨ (!vxe ∧ (s.env l).vcore) ∨ (c.eng k).q ≠ [] then s
  else if s.mc.missed.contains key then
    let s1 := { s0 with mc := { s.mc with missed := s.mc.missed.filter fun m => m != key } }
    let s2 := s1.coreRecord l 0 0x18 0 k word
    if !bad then s2
    else match s.idleSpare (lcCluster l) with
      | some p => if spareBad then s2.spareFail p k word else s2.coreFail l 0x18 k word
      | none => s2.coreFail l 0x18 k word
  else if bad then { s0 with mc := { s.mc with missed := s.mc.missed ++ [key] } }
  else s0

/-- The patrol's read; a stack whose uncorrectable errors repeat is added to the field map (R571, Table 22-8). -/
def State.patrol (s : State) (h : Nat) (x : Ecc) : State :=
  let s1 := s.patrolRead h x
  if (s.stk h).ue < (s1.stk h).ue ∧ Config.stackErrors ≤ (s1.stk h).ue then s1.fmapAdd [entrySite h] else s1

/-- 24 h in ticks. -/
def dayTicks : Nat := 24 * 3600 * 1000000000

/-- An uncorrectable scratchpad word: POISON in place, the record, and the count of its bank (R176, R643). -/
def State.spadUe (s : State) (l a : Nat) (bits : List Byte) : State :=
  let bank := a / 8 % 16
  let key := 64 * s.phys l + bank
  let s1 := s.onCore' l fun _ c => { c with spad := c.spad.setWord a ⟨BitVec.ofNat 64 (leNat bits), .poison⟩ }
  let s2 := s1.coreRecord l 0 0x01 1 bank a
  let ts := ((mget [] s.mc.ueAt key).filter fun t => decide (s.tb < t + dayTicks)) ++ [s.tb]
  let s3 := { s2 with mc := { s2.mc with ueAt := mset s2.mc.ueAt key ts } }
  if 4 ≤ ts.length then s3.coreFail l 0x01 bank a else s3

/-- SPAD_SCRUB: a line of 128 bytes. The errors name words by their index in the scratchpad: those of the line are met by the scrub, and any others by an access since the last such command, whatever the Drip does (R176; log entry 58). -/
def State.spadScrub (s : State) (l line : Nat) (x : Ecc) : State :=
  let words := (s.env l).spadBytes / 8
  let met (w : Nat) : Bool := decide (w < words) && (w / 16 != line || s.drips 3)
  if !s.present l ∨ (s.coreAt l).held then s
  else
    let ue := x.ue.filter fun p => met p.1
    let ce := x.ce.filter fun w => met w && !ue.any fun p => p.1 == w
    let s1 := ce.foldl (fun s w => s.coreRecord l 0 0x01 0 (w % 16) (8 * w)) s
    ue.foldl (fun s p => if s.present l then s.spadUe l (8 * p.1) p.2 else s) s1

/-- IMEM_SCRUB: a word, corrected or marked (R644). -/
def State.imemScrub (s : State) (l word : Nat) (ce ue : Bool) : State :=
  if !s.drips 3 ∨ !s.present l ∨ (s.coreAt l).held ∨ 16384 ≤ word then s
  else if ue then (s.onCore' l fun _ c => { c with imark := mset c.imark word true }).coreRecord l 0 0x02 1 0 (4 * word)
  else if ce then s.coreRecord l 0 0x02 0 0 (4 * word)
  else s

/-- SCRUB_OVERDUE: a pass of the scratchpad or of the instruction memory has not completed in its interval; it goes on (R645). -/
def State.scrubOverdue (s : State) (l : Nat) (imem : Bool) (pass : Nat) : State :=
  if s.present l ∧ s.mc.drip.st = .on ∧ !s.dead then s.coreRecord l 0 0x11 0 (if imem then 2 else 1) pass else s

/-- LINK_MARGIN: a lane out of margin is spared (R476). -/
def State.linkMargin (s : State) (k lane : Nat) (bad : Bool) (n : Nat) : State :=
  if s.drips 2 ∧ bad then s.laneFail k lane n else s

/-- CALIBRATION: a sensor out of tolerance is excluded from the governor. -/
def State.calibrate (s : State) (sensor : Nat) (bad : Bool) : State :=
  if s.drips 1 ∧ bad ∧ !s.mc.sensorsOut.contains sensor then
    ({ s with mc := { s.mc with sensorsOut := s.mc.sensorsOut ++ [sensor] } } : State).mcRecord 0x18 0 0 sensor
  else s

/-! ## The commands -/

/-- FATAL_ERROR: lockstep, MC SRAM or spine (R629). -/
def execFatalError (key : Fin 3) (detail : BitVec 48) (s : State) : Out := .next (s.fatal key.val detail.toNat)
/-- STREAM_FAIL_NOTIFY (R632). -/
def execStreamFailNotify (s : State) : Out := .next s.streamNotify
/-- RECORD_FORWARD (R635). -/
def execRecordForward (q : Fin 49) (s : State) : Out := .next (s.recordForward q.val)
/-- DRIP_ENABLE (R640). -/
def execDripEnable (s : State) : Out := .next (s.dripEnable true)
/-- DRIP_DISABLE (R640). -/
def execDripDisable (s : State) : Out := .next (s.dripEnable false)
/-- DRIP_START (R640). -/
def execDripStart (s : State) : Out := .next s.dripStart
/-- DRIP_STOP_COMPLETE (R640). -/
def execDripStopComplete (s : State) : Out := .next s.dripStop
/-- PATROL_SCRUB_READ (R446, Table 22-8). -/
def execPatrolScrubRead (h : Fin 6) (x : Ecc) (s : State) : Out := .next (s.patrol h.val x)
/-- ENGINE_SELFTEST (R642). -/
def execEngineSelftest (c : CoreId) (vxe bad spareBad : Bool) (word : BitVec 48) (s : State) : Out := .next (s.selftest c.val vxe bad spareBad word.toNat)
/-- SPAD_SCRUB (R176, R643). -/
def execSpadScrub (c : CoreId) (line : Nat) (x : Ecc) (s : State) : Out := .next (s.spadScrub c.val line x)
/-- IMEM_SCRUB (R644). -/
def execImemScrub (c : CoreId) (word : Nat) (ce ue : Bool) (s : State) : Out := .next (s.imemScrub c.val word ce ue)
/-- SCRUB_OVERDUE (R645). -/
def execScrubOverdue (c : CoreId) (imem : Bool) (pass : Nat) (s : State) : Out := .next (s.scrubOverdue c.val imem pass)
/-- LINK_MARGIN (R641). -/
def execLinkMargin (k : Fin 8) (lane : Fin 9) (bad : Bool) (n : Nat) (s : State) : Out := .next (s.linkMargin k.val lane.val bad n)
/-- CALIBRATION (R641). -/
def execCalibration (sensor : Nat) (bad : Bool) (s : State) : Out := .next (s.calibrate sensor bad)
/-- CC_HEARTBEAT_MISS (R647). -/
def execCcHeartbeatMiss (n : Fin 48) (pc : BitVec 48) (restored : Bool) (s : State) : Out := .next (s.heartbeat n.val pc.toNat restored)

end Sys2Proof.Machine
end

