-- ==== Sys2Proof/Machine/Secure.lean ====
section
/-! DEFINITION. Management requests: firmware push and update, tokens, quotes, security versions, measurement, the topology descriptor, exports, and external debug (spec 20; 23 R656 to R660; 04 R159). -/

namespace Sys2Proof.Machine

/-! ## Requests and replies (R658, Tables 23-5 and 23-6) -/

/-- The MC, or the ROM while it takes a push, serves requests: not after DEV FAILED, nor before firmware runs, nor while a claim runs (R563, R607, R629, R660). -/
def State.serves (s : State) : Bool := !s.sec.busy && s.hif.dev != 3 && !s.mc.fatal && (s.brg.pushing || decide (3 ≤ s.brg.phase))

def mbxOp (w : Word) : Nat := fld w 0 8
def mbxLen (w : Word) : Nat := fld w 16 16
def mbxArg (w : Word) : Nat := fld w 32 32

/-- ARG and the bytes of a request of an OP: of the mailbox's waiting request, or of the board's. -/
def State.request (s : State) (op : Nat) (r : MgtReq) : Option (Nat × List Byte) :=
  if !s.serves then none
  else if r.mailbox then
    if s.mbx.busy ∧ mbxOp s.mbx.req = op then some (mbxArg s.mbx.req, rdBytes s.mbx.reqbuf 0 (mbxLen s.mbx.req)) else none
  else some (r.arg, r.bytes)

/-- Completing a request: the mailbox's registers, or a response on the sideband. -/
def State.reply (s : State) (r : MgtReq) (status : Nat) (bytes : List Byte) : State :=
  if r.mailbox then { s with mbx := { s.mbx with busy := false, status := status, rlen := bytes.length, rspbuf := bytes } }
  else s.setHif (s.hif.send (.sideband (BitVec.ofNat 8 status :: bytes)))

/-- A request with its effect: malformed when it is longer than 32,768 bytes; while the ROM takes a push only OP 1 is accepted (R660). A claim that a reset cuts short has no answer (R597). -/
def State.serve (s : State) (op : Nat) (r : MgtReq) (f : Nat → List Byte → State × Nat × List Byte) : State :=
  match s.request op r with
  | none => s
  | some (arg, bytes) =>
    if 32768 < bytes.length then s.reply r 1 []
    else if s.brg.pushing ∧ op ≠ 1 then s.reply r 2 []
    else let x := f arg bytes; if x.1.sec.busy then x.1 else x.1.reply r x.2.1 x.2.2

/-! ## Pushed and updated firmware (R657, R660) -/

/-- Assembling a chunk at its offset. -/
def State.pushChunk (s : State) (off : Nat) (bytes : List Byte) : State :=
  { s with mbx := { s.mbx with push := wrBytes s.mbx.push off bytes, pushLen := max s.mbx.pushLen (off + bytes.length) } }
def State.pushClear (s : State) : State := { s with mbx := { s.mbx with push := [], pushLen := 0 } }

/-- FIRMWARE_PUSH_CHUNK: at the last one the image is verified, and runs or is rejected. -/
def State.firmwarePush (s : State) (arg : Nat) (bytes : List Byte) : State × Nat × List Byte :=
  let off := arg % 2 ^ 31 * 32768
  if !s.brg.pushing then (s, 2, [])
  else if 16777216 < off + bytes.length then (s, 1, [])
  else
    let s1 := s.pushChunk off bytes
    if arg < 2 ^ 31 then (s1, 0, [])
    else
      let img := rdBytes s1.mbx.push 0 s1.mbx.pushLen
      let s2 := s1.pushClear
      if s2.imageGood img then (s2.acceptImage img false true, 0, [])
      else (if s2.brg.straps < 2 then s2 else s2.bootFail 4, 3, [])

/-- The slot that did not boot the running firmware, written. -/
def State.putSlot (s : State) (b : List Byte) : State := { s with nor := if s.sec.fromA then { s.nor with imgB := b } else { s.nor with imgA := b } }

/-- PLDM_FW_UPDATE: the slot that did not boot; verified before success, erased on failure. -/
def State.firmwareUpdate (s : State) (img : List Byte) : State × Nat :=
  let put (b : List Byte) : State := s.putSlot b
  if 16777216 < img.length then (s, 1) else if s.imageGood img then (put img, 0) else (put [], 3)

/-! ## External debug (R606, Table 20-8) -/

/-- The state, and in DEBUG the token's SCOPE bit, allow external debug. -/
def State.debugAllowed (s : State) (b : Nat) : Bool :=
  s.fuses.lc == 0 || s.fuses.lc == 1 || s.fuses.lc == 3 || (s.fuses.lc == 2 && s.sec.debug && s.sec.dscope.getLsbD b)

/-- JTAG_INSTRUCTION: 0 boundary scan and 1 a public instrument in every state; 3 memory access; any other core and engine debug. -/
def State.jtag (s : State) (n : Nat) : State :=
  let ok := decide (n ≤ 1) || s.debugAllowed (if n = 3 then 1 else 0)
  { s with sec := { s.sec with jtag := some (n, ok) } }

/-! ## Tokens (R602 to R605, Table 20-5) -/

/-- "DRE1TOKN". -/
def tokenMagic : List Byte := ascii [68, 82, 69, 49, 84, 79, 75, 78]

def tokenType (b : List Byte) : Nat := numAt b 10 2
def tokenSlot (b : List Byte) : Nat := numAt b 12 4 % 4
def tokenTarget (b : List Byte) : Nat := numAt b 12 4 / 256 % 4
def tokenScope (b : List Byte) : Nat := numAt b 64 8

/-- The form of a token. -/
def tokenForm (b : List Byte) : Bool :=
  let ty := tokenType b
  let arg := numAt b 12 4
  b.length == 5584 && b.take 8 == tokenMagic && numAt b 8 2 == 1 && decide (1 ≤ ty ∧ ty ≤ 6)
    && (if ty = 4 ∨ ty = 5 then decide (arg % 4 + arg / 256 % 4 * 256 = arg) else decide (arg < 4))
    && (if ty = 1 then decide (tokenScope b < 8) else tokenScope b == 0)
    && zerosAt b 72 8 && (ty == 6 || zerosAt b 80 32) && zerosAt b 112 16

/-- The nonce in force. -/
def State.nonce (s : State) : BitVec 256 := Config.nonce s.sec.nonce

/-- TYPE is allowed in the present state; a type that burns fuses needs VDD_FUSE (R605, R675). -/
def State.tokenState (s : State) (ty : Nat) (vfuse : Bool) : Bool :=
  let lc := s.fuses.lc
  match ty with
  | 1 => lc == 2 && !s.sec.debug
  | 2 => lc == 2 && !s.sec.debug && vfuse
  | 3 => lc == 3 && vfuse
  | 4 | 5 => (lc == 1 || lc == 2 || lc == 3) && vfuse
  | _ => lc == 1 || lc == 3

/-- The slots that remain enabled and not revoked after one more is revoked. -/
def Fuses.slotsWithout (f : Fuses) (k : Nat) : Bool := (List.range 4).any fun j => j != k && f.slotGood j

/-- TERR of a token, 0 when it is accepted (Table 20-10). -/
def State.tokenError (s : State) (b : List Byte) (vfuse : Bool) : Nat :=
  let ty := tokenType b
  if !tokenForm b then 1
  else if numAt b 16 16 ≠ s.fuses.serial.toNat then 2
  else if numAt b 32 32 ≠ s.nonce.toNat then 3
  else if !s.tokenState ty vfuse then 4
  else if !s.fuses.slotGood (tokenSlot b) || !keyIsSlot (tokenSlot b) (sliceOf b 128 60)
      || (ty == 5 && s.fuses.slotGood (tokenTarget b) && !s.fuses.slotsWithout (tokenTarget b)) then 5
  else if !Config.hssVerify (sliceOf b 128 60) (b.take 128) (sliceOf b 188 5396) then 6
  else 0

/-- The STATUS of a refusal. -/
def tokenStatus (terr : Nat) : Nat :=
  match terr with
  | 0 => 0 | 1 => 1 | 4 => 2 | 6 => 3 | _ => 4

/-- The memories of a core, wiped (R604, R650). -/
def Core.wiped (c : Core) : Core :=
  { c with imem := [], imark := [], spad := {}, mxe := { c.mxe with tags := [], tiles := [], psn := [], cell0 := {}, cell1 := {}, panel0 := {}, panel1 := {}, testTile := [], testAcc := [] }, vxe := { c.vxe with v := [], psn := [] } }

/-- The wipe of a life-cycle change, after the job has ended with exit code 2 (R604). -/
def State.lifeWipe (s : State) : State :=
  let s1 := s.endJob 2
  { s1 with cores := s1.cores.map fun p => (p.1, p.2.wiped)
            hbm := s1.hbm.map fun p => (p.1, { p.2 with mem := [], mark := [] })
            mbx := { s1.mbx with reqbuf := [], rspbuf := [], push := [], pushLen := 0, snapT := [], snapF := [] } }

/-- What an accepted token does. -/
def State.tokenEffect (s : State) (b : List Byte) : State :=
  let k := BitVec.ofNat 4 (2 ^ tokenTarget b)
  match tokenType b with
  | 1 => let s1 := s.lifeWipe; { s1 with sec := { s1.sec with debug := true, dscope := BitVec.ofNat 8 (tokenScope b) } }
  | 2 => let s1 := s.lifeWipe; { s1 with fuses := { s1.fuses with lc := 3 } }
  | 3 => let s1 := s.lifeWipe; ({ s1 with fuses := { s1.fuses with lc := 4, kill := true } } : State).bootFail 3
  | 4 => { s with fuses := { s.fuses with slotEn := s.fuses.slotEn ||| k } }
  | 5 => { s with fuses := { s.fuses with slotRev := s.fuses.slotRev ||| k } }
  | _ => { s with sec := { s.sec with edit := some (BitVec.ofNat 256 (numAt b 80 32)) } }

/-- A token is submitted: refused with TERR, or accepted, measured, and a fresh nonce drawn. -/
def State.token (s : State) (vfuse : Bool) (b : List Byte) : State × Nat × List Byte :=
  if s.hif.dev = 0 then (s, 2, [])
  else
    let terr := s.tokenError b vfuse
    if terr ≠ 0 then ({ s with sec := { s.sec with terr := terr } }, tokenStatus terr, [])
    else
      let s1 := s.extend 6 (Config.sha256 b)
      ({ s1 with sec := { s1.sec with terr := 0, nonce := s1.sec.nonce + 1 } }.tokenEffect b, 0, [])

/-- A token row: a well-formed token of another TYPE is another row's. -/
def State.tokenRow (s : State) (ty : Nat) (r : MgtReq) : State :=
  match s.request 2 r with
  | some (_, b) => if tokenForm b ∧ tokenType b ≠ ty then s else s.serve 2 r fun _ b => s.token r.vfuse b
  | none => s

/-! ## Attestation, security versions and measurement (R590, R594 to R599) -/

/-- "DRE1QUOT". -/
def quoteMagic : List Byte := ascii [68, 82, 69, 49, 81, 85, 79, 84]

/-- The body of a quote (Table 20-6). -/
def State.quoteBody (s : State) (nonce : List Byte) : List Byte :=
  quoteMagic ++ leBytes 2 1 ++ leBytes 2 s.chipId ++ leBytes 1 (s.fuses.lc + 128 * b2n s.sec.debug) ++ leBytes 1 s.fuses.svn ++ [0, 0]
    ++ leBytes 4 s.sec.fwver ++ leBytes 4 s.sec.claim ++ leBytes 8 s.tb ++ leBytes 16 s.fuses.serial.toNat ++ List.replicate 16 0
    ++ nonce ++ digestBytes s.brg.mapdig ++ (List.range 8).flatMap fun i => digestBytes (s.sec.mrAt i)

/-- A quote's HSS signature: the number of signed keys as four bytes, the top tree's signature of the claim's bottom public key by leaf q, that key, and the bottom tree's signature of the body (R596, R598, Table 20-1). -/
def quoteSignature (f : Fuses) (nodes : List Byte) (q leaf : Nat) (body : List Byte) : List Byte :=
  match f.topKeys, f.botKeys q with
  | some t, some b =>
    let pub := treePublic 10 b
    [0, 0, 0, 1] ++ fixedLen 2668 (Config.lmsSign 15 t.1 t.2 q nodes pub) ++ pub ++ fixedLen 2508 (Config.lmsSign 10 b.1 b.2 leaf [] body)
  | _, _ => []

/-- A quote on the next bottom leaf; refused where the key engine reads no secret. -/
def State.quoteSigned (s : State) (nonce : List Byte) : State × Nat × List Byte :=
  if s.fuses.topKeys.isNone then (s, 4, [])
  else
    let body := s.quoteBody nonce
    ({ s with sec := { s.sec with left := s.sec.left - 1 } }, 0, body ++ quoteSignature s.fuses s.nor.nodes s.sec.claim (1024 - s.sec.left) body)

/-- A claim that a reset cuts short: its index is spent, and nothing is signed (R597, R607). -/
def State.claimCut (s : State) (vfuse : Bool) : State :=
  if (s.claim vfuse).2 then { s with fuses := { s.fuses with claims := s.fuses.claims + 1 }, sec := { s.sec with busy := true } } else s

/-- QUOTE: a claim comes first when no leaf is left (R597). -/
def State.quote (s : State) (vfuse cut : Bool) (bytes : List Byte) : State × Nat × List Byte :=
  if bytes.length ≠ 32 then (s, 1, [])
  else if s.hif.dev = 0 ∨ s.fuses.lc = 0 ∨ s.fuses.lc = 4 then (s, 2, [])
  else if !s.sec.idok ∨ 8192 ≤ s.fuses.claims ∧ s.sec.left = 0 then (s, 4, [])
  else if s.sec.left = 0 then
    let x := s.claim vfuse
    if cut then (s.claimCut vfuse, 4, []) else if x.2 then x.1.quoteSigned bytes else (x.1, 4, [])
  else s.quoteSigned bytes

/-- SVN_COMMIT: the fused SVN rises to the image's after READY, in FIELD, when COMMIT asks for it; a burn cut short has burnt the fuses from the lowest up to a count (R590, R675). -/
def State.svnCommit (s : State) (vfuse : Bool) (cut : Option Nat) : State :=
  if s.hif.dev = 1 ∧ s.fuses.lc = 2 ∧ s.sec.commit ∧ s.fuses.svn < s.sec.image ∧ vfuse ∧ !s.mc.fatal then
    { s with fuses := { s.fuses with svn := min s.sec.image (s.fuses.svn + cut.getD s.sec.image) } }
  else s

/-- EXT7: MR.7 with SEC.EXTD (R593, R594). -/
def State.ext7 (s : State) : State :=
  if s.serves ∧ !s.brg.pushing then
    s.extend 7 (BitVec.ofNat 256 (leNat ((List.range 4).flatMap fun i => leBytes 8 (mget (0 : Word) s.sec.extd i).toNat)))
  else s

/-! ## The topology descriptor, exports and the certificate (R592, R659, R660) -/

/-- Writing the inactive copy; it governs from its last chunk on. -/
def State.topologyWrite (s : State) (arg : Nat) (bytes : List Byte) : State × Nat × List Byte :=
  let off := arg % 2 ^ 31 * 32768
  if s.hif.job ≠ 0 then (s, 2, [])
  else if 8388608 < off + bytes.length then (s, 1, [])
  else
    let s1 := (if off = 0 then s.pushClear else s).pushChunk off bytes
    let img := rdBytes s1.mbx.push 0 s1.mbx.pushLen
    let last := decide (2 ^ 31 ≤ arg)
    let n := if s1.nor.topoCur then { s1.nor with topo0 := img } else { s1.nor with topo1 := img }
    let s2 : State := { s1 with nor := if last then { n with topoCur := !n.topoCur } else n, mbx := { s1.mbx with staleT := true } }
    (if last then s2.pushClear else s2, 0, [])

/-- A piece of 16,384 bytes. -/
def pieceOf (bs : List Byte) (i : Nat) : List Byte := sliceOf bs (16384 * i) 16384

/-- TOPOLOGY_READ. -/
def State.topologyRead (s : State) (arg : Nat) : State × Nat × List Byte :=
  let i := arg % 2 ^ 31
  if i = 0 then
    let s1 := { s with mbx := { s.mbx with snapT := s.nor.topology, staleT := false } }
    (s1, 0, pieceOf s.nor.topology 0)
  else if s.mbx.staleT then (s, 2, []) else (s, 0, pieceOf s.mbx.snapT i)

/-- FIELDMAP_EXPORT. -/
def State.fieldmapExport (s : State) (arg : Nat) : State × Nat × List Byte :=
  let i := arg % 2 ^ 31
  if i = 0 then
    let img := (s.fmapInUse.map Prod.fst).getD []
    ({ s with mbx := { s.mbx with snapF := img, staleF := false } }, 0, pieceOf img 0)
  else if s.mbx.staleF then (s, 2, []) else (s, 0, pieceOf s.mbx.snapF i)

/-- A reply whose content the spec leaves to another standard (log entry 11). -/
def State.openReply (s : State) (row : Nat) (r : MgtReq) : State :=
  let s1 := { s with mbx := { s.mbx with asks := s.mbx.asks + 1 } }
  s1.reply r 0 ((Config.sidebandReply row s.mbx.asks).take 16384)

/-- The readings of the sensors of Table 23-4 that the state holds: DEV, POWER_OVER, PWR.MEAS, and the temperatures of the stacks. -/
def State.sensors (s : State) : List Nat := [s.hif.dev, b2n s.pwr.pover, s.pwr.mw] ++ (List.range 6).map fun h => (s.stk h).temp

/-- The reading of a sensor. -/
def State.sensorRead (s : State) (r : MgtReq) : State :=
  let s1 := { s with mbx := { s.mbx with asks := s.mbx.asks + 1 } }
  s1.reply r 0 ((Config.sensorReply r.bytes s.sensors s.mbx.asks).take 16384)

/-- DEBUG_PACKET: refused unless external debug of the service network is allowed. -/
def State.debugPacket (s : State) (r : MgtReq) : State :=
  match s.request 8 r with
  | none => s
  | some (_, bytes) =>
    if 32768 < bytes.length then s.reply r 1 []
    else if s.brg.pushing ∨ !s.debugAllowed 2 then s.reply r 2 []
    else s.openReply 2 r

/-! ## The commands -/

/-- DEBUG_HALT: external debug parks a core's threads and engines (R159, R606). -/
def execDebugHalt (c : CoreId) (s : State) : Out := .next (if s.debugAllowed 0 then s.onLive' c.val debugHalt else s)
/-- FIRMWARE_PUSH_CHUNK (R660). -/
def execFirmwarePushChunk (r : MgtReq) (s : State) : Out := .next (s.serve 1 r fun a b => s.firmwarePush a b)
/-- TOKEN_UNLOCK (R605). -/
def execTokenUnlock (r : MgtReq) (s : State) : Out := .next (s.tokenRow 1 r)
/-- TOKEN_RETURN (R605). -/
def execTokenReturn (r : MgtReq) (s : State) : Out := .next (s.tokenRow 2 r)
/-- TOKEN_SCRAP (R603, R605). -/
def execTokenScrap (r : MgtReq) (s : State) : Out := .next (s.tokenRow 3 r)
/-- TOKEN_SLOT_ENABLE (R589). -/
def execTokenSlotEnable (r : MgtReq) (s : State) : Out := .next (s.tokenRow 4 r)
/-- TOKEN_SLOT_REVOKE (R589). -/
def execTokenSlotRevoke (r : MgtReq) (s : State) : Out := .next (s.tokenRow 5 r)
/-- TOKEN_FIELDMAP_EDIT (R592). -/
def execTokenFieldmapEdit (r : MgtReq) (s : State) : Out := .next (s.tokenRow 6 r)
/-- QUOTE (R598). -/
def execQuote (r : MgtReq) (s : State) : Out := .next (s.serve 6 r fun _ b => s.quote r.vfuse r.cut b)
/-- SVN_COMMIT (R590). -/
def execSvnCommit (x : SvnBurn) (s : State) : Out := .next (s.svnCommit x.vfuse x.cut)
/-- EXT7 (R594). -/
def execExt7 (s : State) : Out := .next s.ext7
/-- TOPOLOGY_WRITE (R660). -/
def execTopologyWrite (r : MgtReq) (s : State) : Out := .next (s.serve 3 r fun a b => s.topologyWrite a b)
/-- TOPOLOGY_READ (R659). -/
def execTopologyRead (r : MgtReq) (s : State) : Out := .next (s.serve 4 r fun a _ => s.topologyRead a)
/-- FIELDMAP_EXPORT (R592, R659). -/
def execFieldmapExport (r : MgtReq) (s : State) : Out := .next (s.serve 5 r fun a _ => s.fieldmapExport a)
/-- CERT_READ (R658). -/
def execCertRead (r : MgtReq) (s : State) : Out := .next (s.serve 7 r fun _ _ => (s, 0, s.nor.cert.take 16384))
/-- DEBUG_PACKET (R606). -/
def execDebugPacket (r : MgtReq) (s : State) : Out := .next (s.debugPacket r)
/-- PLDM_FW_UPDATE: on the sideband only; one that a reset cuts short leaves its slot erased (R657). -/
def execPldmFwUpdate (r : MgtReq) (s : State) : Out :=
  .next (if r.mailbox ∨ !s.serves ∨ s.brg.pushing then s else if r.cut then s.putSlot [] else let x := s.firmwareUpdate r.bytes; x.1.reply r x.2 [])
/-- PLDM_SENSOR_READ (R656). -/
def execPldmSensorRead (r : MgtReq) (s : State) : Out := .next (if r.mailbox ∨ !s.serves then s else s.sensorRead r)
/-- MCTP_CONTROL (R656). -/
def execMctpControl (r : MgtReq) (s : State) : Out := .next (if r.mailbox ∨ !s.serves then s else s.openReply 0 r)
/-- JTAG_INSTRUCTION (R606). -/
def execJtagInstruction (n : Nat) (s : State) : Out := .next (s.jtag n)

end Sys2Proof.Machine
end

