-- ==== Sys2Proof/Machine/Telemetry.lean ====
section
/-! DEFINITION. Telemetry frames and their ring (spec 23 R662, R663, Tables 23-8 and 23-9). -/

namespace Sys2Proof.Machine

/-- A counter of the frames' windows: 3h + i for a site's CE, UE and PPR, 24 + 2l + i for a core's messages and SENDs that waited, 6,168 + 9k + l for the corrected symbols of a port's lane. -/
def State.telCount (s : State) (k : Nat) : Nat :=
  if k < 24 then
    let h := s.stk (k / 3)
    if k % 3 = 0 then h.ce else if k % 3 = 1 then h.ue else h.ppr
  else if 6168 ≤ k then mget 0 (s.port ((k - 6168) / 9)).laneSum ((k - 6168) % 9)
  else
    let c := s.coreAt ((k - 24) / 2)
    (c.cho.map fun p => if k % 2 = 0 then p.2.msg else p.2.stall).sum

/-- Every counter that is not zero. -/
def State.telCounts (s : State) : List (Nat × Nat) :=
  (List.range 18).map (fun k => (k, s.telCount k)) ++ (s.cores.flatMap fun p => [(24 + 2 * p.1, s.telCount (24 + 2 * p.1)), (25 + 2 * p.1, s.telCount (25 + 2 * p.1))])
    ++ (List.range 72).map fun i => (6168 + i, s.telCount (6168 + i))

/-- The increment of a counter since the last window's end. -/
def State.telRise (s : State) (k : Nat) : Nat := s.telCount k - mget 0 s.tel.prev k

/-- PWR.STAT, PWR.MEAS and PWR.h as they read (Table 21-6). -/
def State.pwrStat (s : State) : Word :=
  let p := s.pwr
  pack [(b2n p.werr, 15, 1), (b2n p.wearex, 14, 1), (b2n s.pins.thermtrip, 13, 1), (b2n s.pins.throttle, 12, 1), (b2n p.floorbrk, 11, 1), (b2n p.pover, 10, 1), (p.ocause, 8, 2), (p.hot, 0, 8)]
def State.pwrMeas (s : State) : Word := pack [(s.pwr.win, 32, 32), (s.pwr.mw, 0, 32)]
def Half.word (h : Half) : Word := pack [(b2n h.on, 63, 1), (h.set, 48, 10), (h.wear, 42, 6), (h.vp, 20, 10), (h.tgt, 0, 10)]

/-- An enable state machine in the top bits of its register (Table 19-7). -/
def EnFsm.top (f : EnFsm) : List (Nat × Nat × Nat) := [(b2n f.en, 63, 1), (f.st.code, 61, 2), (b2n f.pend, 60, 1), (b2n f.cerr, 59, 1)]

/-- HBM.h.STAT (Table 14-5). -/
def State.hbmStat (s : State) (h : Nat) : Word :=
  let k := s.stk h
  if s.sitePresent h then pack [(1, 63, 1), (b2n k.refused, 9, 1), (b2n (s.hot h), 8, 1), (k.temp, 0, 8)] else 0

/-- A list of bytes of a fixed length. -/
def fitTo (n : Nat) (bs : List Byte) : List Byte := (bs ++ List.replicate n 0).take n

/-- A frame (Table 23-8): bytes 64 to 575 are what the sensors and regulators read, and the eye margins of the lanes what their monitors read, two bytes each. -/
def State.telFrame (s : State) (sensors eyes : List Byte) : List Byte :=
  let t := s.tel
  let i := t.interval * 1000000
  leBytes 8 t.seq ++ leBytes 8 (t.window * i) ++ leBytes 8 ((t.window + 1) * i)
    ++ leBytes 8 (pack [(s.chipId, 0, 16), (s.hif.dev, 16, 3), (s.hif.job, 20, 3)]).toNat ++ leBytes 8 (t.unrep % 2 ^ 32) ++ List.replicate 24 0
    ++ fitTo 512 sensors
    ++ leBytes 8 s.pwrMeas.toNat ++ leBytes 8 s.pwrStat.toNat ++ leBytes 8 s.pwr.w.word.toNat ++ leBytes 8 s.pwr.e.word.toNat
    ++ leBytes 8 (s.cores.map fun p => p.2.pace.slips).sum ++ List.replicate 24 0
    ++ (List.range 6).flatMap (fun h => (List.range 3).flatMap (fun j => leBytes 8 (s.telRise (3 * h + j))) ++ leBytes 8 (s.hbmStat h).toNat)
    ++ (List.range 72).flatMap (fun i => leBytes 8 (pack [(s.telRise (6168 + i), 32, 32), (numAt eyes (2 * i) 2, 0, 16)]).toNat) ++ List.replicate 2688 0
    ++ (List.range 3072).flatMap fun l => leBytes 8 (s.telRise (24 + 2 * l)) ++ leBytes 8 (s.telRise (25 + 2 * l))

/-- Frames in the ring, and a ring with no free entry (log entry 28). -/
def Tel.used (t : Tel) : Nat := (t.tail + 2 ^ t.log2n - t.head) % 2 ^ t.log2n
def Tel.full (t : Tel) : Bool := decide (2 ^ t.log2n ≤ t.used + 1)

/-- TELEMETRY_FRAME: the frame of the next window, once it has ended. -/
def State.telemetry (s : State) (sensors eyes : List Byte) : State :=
  let t := s.tel
  if !t.en ∨ s.dead ∨ s.brg.phase < 3 ∨ s.tb < (t.window + 1) * (t.interval * 1000000) then s
  else
    let t1 := { t with window := t.window + 1, prev := s.telCounts }
    if !s.hif.bme then { s with tel := t1 }
    else if t.full then { s with tel := { t1 with lost := t1.lost + 1, unrep := t1.unrep + 1 } }
    else
      let f := s.telFrame sensors eyes
      let s1 := s.setHif (s.hif.send (.write (t.base + BitVec.ofNat 64 (53248 * t.tail)) f))
      { s1 with tel := { t1 with tail := (t.tail + 1) % 2 ^ t.log2n, unrep := 0, last := f, seq := t.seq + 1 } }

/-- A write of TEL.CFG. -/
def State.telCfg (s : State) (v : Word) : State :=
  let t := s.tel
  let i := fld v 8 16
  let n := fld v 0 4
  if t.en then { s with tel := { t with en := bit v 63 } }
  else if bit v 63 ∧ 1 ≤ i ∧ i ≤ 60000 ∧ 1 ≤ n ∧ n ≤ 8 then
    { s with tel := { t with en := true, interval := i, log2n := n, head := 0, tail := 0, window := s.tb / (i * 1000000), prev := s.telCounts } }
  else { s with tel := { t with interval := i, log2n := n } }

/-- TELEMETRY_FRAME (R662). -/
def execTelemetryFrame (sensors eyes : List Byte) (s : State) : Out := .next (s.telemetry sensors eyes)
/-- TEL_ENABLE: a write of TEL.CFG (Table 23-9). -/
def execTelEnable (v : Word) (s : State) : Out := .next (s.telCfg v)

end Sys2Proof.Machine
end

