-- ==== Sys2Proof/Machine/Mgmt.lean ====
section
/-! DEFINITION. Management space and BAR0: what each register reads as and what a write of it does (spec 23 R654, R655, Tables 23-1 to 23-3, 23-5, 23-9; 18 Tables 18-3 and 18-4; 12 Table 12-6; 14 Tables 14-5 and 14-6; 15 Tables 15-10 and 15-11; 19 Table 19-10; 20 Table 20-10; 21 Table 21-6; 22 Table 22-10). -/

namespace Sys2Proof.Machine

/-- The bit at place i and the rest of a `pack` entry. -/
def flag (b : Bool) (i : Nat) : Nat × Nat × Nat := (b2n b, i, 1)

/-- Bytes [8i, 8i + 8) of a digest. -/
def digestWord (d : BitVec 256) (i : Nat) : Word := BitVec.ofNat 64 (d.toNat / 2 ^ (64 * i))

/-! ## Reads -/

/-- BRG (Table 19-10). -/
def State.readBrg (s : State) (o : Nat) : Word :=
  let b := s.brg
  if o = 0x000 then pack [(b.fcause, 60, 4), (b.acc.toNat, 16, 8), (b.hold.toNat, 8, 5), (b.phase, 4, 4), flag b.src 3, flag b.alone 2]
  else if 0x040 ≤ o ∧ o < 0x060 then digestWord b.mapdig ((o - 0x040) / 8)
  else if 0x080 ≤ o ∧ o < 0x0C0 then BitVec.ofNat 64 (mget 0 b.ptb ((o - 0x080) / 8 + 1))
  else if 0x100 ≤ o ∧ o < 0x200 then (if 3 < b.phase then BitVec.ofNat 64 (numAt b.umap.bytes (o - 0x100) 8) else 0)
  else 0

/-- SEC (Table 20-10). -/
def State.readSec (s : State) (o : Nat) : Word :=
  let x := s.sec
  let f := s.fuses
  if o = 0x000 then pack [(x.terr, 16, 8), (x.dscope.toNat, 8, 8), flag x.idok 4, flag x.debug 3, (f.lc, 0, 3)]
  else if o = 0x008 then pack [(x.slot, 8, 2), (f.slotRev.toNat, 4, 4), (f.slotEn.toNat, 0, 4)]
  else if o = 0x010 then pack [(x.image, 8, 8), (f.svn, 0, 7)]
  else if o = 0x018 then pack [flag (decide (8192 ≤ f.claims)) 63, flag x.busy 62, (x.left, 48, 11), (f.claims, 0, 14)]
  else if 0x040 ≤ o ∧ o < 0x060 then digestWord s.nonce ((o - 0x040) / 8)
  else if 0x060 ≤ o ∧ o < 0x080 then mget 0 x.extd ((o - 0x060) / 8)
  else if 0x100 ≤ o ∧ o < 0x200 then digestWord (x.mrAt ((o - 0x100) / 32)) ((o - 0x100) / 8 % 4)
  else 0

/-- PWR (Table 21-6). -/
def State.readPwr (s : State) (o : Nat) : Word :=
  let p := s.pwr
  match o with
  | 0x00 => s.pwrStat
  | 0x08 => BitVec.ofNat 64 p.cap
  | 0x10 => BitVec.ofNat 64 p.tlim
  | 0x18 => BitVec.ofNat 64 p.duty
  | 0x20 => BitVec.ofNat 64 p.fixed
  | 0x28 => s.pwrMeas
  | 0x30 => p.w.word
  | 0x38 => p.e.word
  | 0x40 => pack [flag p.busy 12, (p.rcause, 8, 4), flag p.eoff 1, flag p.woff 0]
  | _ => 0

/-- An ERR block (Table 22-10); `die` adds LOG and DRIP. -/
def State.readErr (s : State) (q o : Nat) : Word :=
  let x := mget {} s.errs q
  let cls := fld x.sel 0 8
  match o with
  | 0x00 => pack [(min 127 x.unrep, 16, 7), (x.peak, 8, 7), (x.recs.length, 0, 7)]
  | 0x08 => x.sel
  | 0x10 => BitVec.ofNat 64 (mget 0 x.cnt (cntKey (fld x.sel 32 4 * 65536 + fld x.sel 16 16) cls))
  | 0x18 => BitVec.ofNat 64 (mget 0 x.lost cls)
  | 0x20 => if q = 48 then BitVec.ofNat 64 (s.mc.total % 4096) else 0
  | 0x28 => if q = 48 then BitVec.ofNat 64 s.mc.total else 0
  | 0x40 => if q = 48 then pack (s.mc.drip.top ++ [(s.mc.dripFlags.toNat, 0, 5)]) else 0
  | _ => 0

/-- TB.CTL, TB.STAT, TB.SYNC and TB.SYNCSET (Table 15-11). -/
def State.readTb (s : State) (o : Nat) : Word :=
  let t := s.tbr
  match o with
  | 0x00 => pack [flag t.root 5, flag t.upv 4, (t.up, 0, 3)]
  | 0x08 => pack [(natOfInt 32 t.offset, 32, 32), flag t.serr 9, flag t.lost 8, (t.depth, 4, 4), (t.state, 0, 2)]
  | 0x10 => pack [flag t.syncEn 63, flag t.steparm 62, (t.interval, 0, 32)]
  | 0x18 => t.syncset
  | _ => 0

/-- HBM.h (Table 14-5). -/
def State.readHbm (s : State) (h o : Nat) : Word :=
  let k := s.stk h
  if !s.sitePresent h then 0
  else match o with
    | 0x00 => pack ((k.fsm.top.take 3) ++ [flag k.hotref 1, flag k.patrol 0])
    | 0x08 => s.hbmStat h
    | 0x10 => BitVec.ofNat 64 k.ce
    | 0x18 => BitVec.ofNat 64 k.ue
    | 0x20 => pack [(k.passes, 32, 32), (k.scrubWord / 8, 0, 29)]
    | 0x28 => BitVec.ofNat 64 k.ppr
    | _ => 0

/-- REGION.n (Table 14-6). -/
def Region.read (r : Region) (o : Nat) : Word :=
  match o with
  | 0x00 => pack (r.fsm.top ++ [(r.mode, 56, 3), (r.tgt, 52, 4), (r.ch, 48, 4), (r.pbase, 0, 24)])
  | 0x08 => BitVec.ofNat 64 r.vbase
  | 0x10 => BitVec.ofNat 64 r.size
  | _ => 0

/-- PST of a port as it reads: 2 while it waits at its entry. -/
def State.pst (s : State) (n p : Nat) : Nat :=
  let q := (s.router n).out p
  if q.pst = 1 ∧ s.portWaits n p then 2 else q.pst

/-- A router block (Table 12-6). -/
def State.readRouter (s : State) (n o : Nat) : Word :=
  let r := s.router n
  if o = 0x0000 then pack (r.fsm.top ++ [(r.wdog.toNat, 0, 32)])
  else if o = 0x0008 then
    pack ([flag r.werr 16, flag (r.failed != []) 15, (r.stall.toNat, 10, 5)] ++ (List.range 5).map fun p => (s.pst n p, 2 * p, 2))
  else if o = 0x0010 then pack ((List.range 5).map fun p => ((r.out p).pc, 8 * p, 8))
  else if 0x0018 ≤ o ∧ o < 0x0040 then let q := r.out ((o - 0x0018) / 8); pack [(q.lc1, 16, 16), (q.lc0, 0, 16)]
  else if 0x0040 ≤ o ∧ o < 0x0068 then BitVec.ofNat 64 (r.out ((o - 0x0040) / 8)).flits
  else if 0x0400 ≤ o ∧ o < 0x0800 then stabShown (mget 0 r.stab ((o - 0x0400) / 8))
  else if 0x0800 ≤ o ∧ o < 0x3000 then schedShown (mget 0 r.sched ((o - 0x0800) / 8))
  else 0

/-- The physical lane of a logical lane. -/
def Lnk.laneOf (p : Lnk) (l : Nat) : Nat := mget l p.lmap l

/-- LNK.k (Table 15-10). -/
def State.readLnk (s : State) (k o : Nat) : Word :=
  let p := s.port k
  if !s.portPresent k then 0
  else if 0x400 ≤ o then s.readRouter (linkNode k) o
  else match o with
    | 0x000 => pack (p.fsm.top ++ [(p.fec, 57, 2), flag p.sparen 56, (p.spthr, 32, 16)])
    | 0x008 => pack [(p.dcause, 60, 4), flag p.miswired 59, flag p.long 58, flag p.spared 57, flag p.holds 56]
    | 0x010 => pack ((List.range 8).map fun l => (p.laneOf l, 4 * l, 4))
    | 0x018 => pack [(p.delay, 0, 32)]
    | 0x020 => BitVec.ofNat 64 p.fecce
    | 0x028 => BitVec.ofNat 64 p.fecue
    | 0x030 => BitVec.ofNat 64 p.crce
    | 0x038 => BitVec.ofNat 64 p.replay
    | 0x040 => if p.peerV then pack [(p.peerChip, 52, 12), (p.peerPort, 49, 3), (1, 48, 1)] else 0
    | _ => 0

/-- The node of a router block in cluster window n. -/
def windowNode (n i : Nat) : Nat := nodeOf (72 * n + i)

/-- Cluster window n (Table 23-2). -/
def State.readWindow (s : State) (n o : Nat) : Word :=
  if 0x1_0000 ≤ o ∧ o < 0x1_0000 + 0x4000 * 72 then s.readRouter (windowNode n ((o - 0x1_0000) / 0x4000)) ((o - 0x1_0000) % 0x4000)
  else if !s.clPresent n then 0
  else if o = 0 then pack (s.cl n).top
  else if 0x1000 ≤ o ∧ o < 0x2000 then s.readErr n (o - 0x1000)
  else 0

/-- A read of die space (Table 23-1). -/
def State.readDie (s : State) (o : Nat) : Word :=
  if o < 0x1000 then s.readBrg o
  else if o < 0x2000 then s.readSec (o - 0x1000)
  else if o < 0x3000 then s.readPwr (o - 0x2000)
  else if o < 0x4000 then s.readErr 48 (o - 0x3000)
  else if o < 0x5000 then s.readTb (o - 0x4000)
  else if o = 0x5000 then pack [flag s.chipLock 63, (s.chipId, 0, 12)]
  else if 0x5100 ≤ o ∧ o < 0x5140 then (s.line ((o - 0x5100) / 8)).word
  else if o = 0x6000 then pack [(s.pins.gpioOe.toNat, 8, 8), (s.pins.gpioOut.toNat, 0, 8)]
  else if o = 0x6008 then ((s.pins.gpioOe &&& s.pins.gpioOut) ||| (~~~s.pins.gpioOe &&& s.pins.gpioIn)).setWidth 64
  else if 0x1_0000 ≤ o ∧ o < 0x1_0200 then (s.region ((o - 0x1_0000) / 32)).read (o % 32)
  else if 0x2_0000 ≤ o ∧ o < 0x2_6000 then s.readHbm ((o - 0x2_0000) / 0x1000) (o % 0x1000)
  else if 0x4_0000 ≤ o ∧ o < 0x4_0000 + 8 * 4095 then
    (let r := s.route ((o - 0x4_0000) / 8); pack [flag r.v 63, (r.port, 0, 3)])
  else if 0x10_0000 ≤ o ∧ o < 0x12_0000 then s.readLnk ((o - 0x10_0000) / 0x4000) (o % 0x4000)
  else if 0x20_0000 ≤ o ∧ o < 0x20_0000 + 0x4000 * 96 then
    (let i := (o - 0x20_0000) / 0x4000; if s.sitePresent (i / 16) then s.readRouter (3456 + i) (o % 0x4000) else 0)
  else 0

/-- A read of management space. -/
def State.mgmtRead (s : State) (o : Nat) : Word :=
  match mgmtCluster o with
  | some n => s.readWindow n ((o - 0x300_0000) % 0x40_0000)
  | none => s.readDie o

/-- HIF (Table 18-4). -/
def State.readHif (s : State) (o : Nat) : Word :=
  let h := s.hif
  let cfg (q : HRing) : Word := pack [flag q.en 63, (q.log2n, 0, 4)]
  match o with
  | 0x000 => pack [(partDevid s.fuses.part, 48, 16), (0xB0, 40, 8), (s.chipId, 0, 12)]
  | 0x008 => s.hifStat
  | 0x010 => h.exit.setWidth 64
  | 0x040 => h.cmdq.base | 0x048 => cfg h.cmdq | 0x050 => BitVec.ofNat 64 h.cmdq.tail | 0x058 => BitVec.ofNat 64 h.cmdq.head
  | 0x060 => h.cplq.base | 0x068 => cfg h.cplq | 0x070 => BitVec.ofNat 64 h.cplq.head | 0x078 => BitVec.ofNat 64 h.cplq.tail
  | 0x080 => h.evq.base | 0x088 => cfg h.evq | 0x090 => BitVec.ofNat 64 h.evq.head | 0x098 => BitVec.ofNat 64 h.evq.tail
  | 0x0A0 => BitVec.ofNat 64 h.evlost
  | _ => 0

/-- The mailbox (Table 23-5). -/
def State.readMbx (s : State) (o : Nat) : Word :=
  let m := s.mbx
  if o = 0x0008 then pack [(m.rlen, 32, 32), flag m.busy 16, (m.status, 0, 8)]
  else if o = 0x0010 then m.req
  else if 0x1000 ≤ o ∧ o < 0x9000 then BitVec.ofNat 64 (rdNat m.reqbuf (o - 0x1000) 8)
  else if 0x9000 ≤ o ∧ o < 0x1_0000 then BitVec.ofNat 64 (numAt m.rspbuf (o - 0x9000) 8)
  else 0

/-- The error log window: entry i of the ring (R639). -/
def State.readLog (s : State) (o : Nat) : Word :=
  let m := s.mc
  let behind := (m.total + 4096 - o / 32 - 1) % 4096
  if behind < m.log.length then
    (match m.log[m.log.length - 1 - behind]? with | some r => BitVec.ofNat 64 (numAt r.bytes (o % 32) 8) | none => 0)
  else 0

/-- Telemetry (Table 23-9). -/
def State.readTel (s : State) (o : Nat) : Word :=
  let t := s.tel
  if o = 0x00 then pack [flag t.en 63, (t.interval, 8, 16), (t.log2n, 0, 4)]
  else if o = 0x08 then t.base
  else if o = 0x10 then BitVec.ofNat 64 t.head
  else if o = 0x18 then BitVec.ofNat 64 t.tail
  else if o = 0x20 then BitVec.ofNat 64 t.lost
  else if 0x1_0000 ≤ o ∧ o < 0x1_D000 then BitVec.ofNat 64 (numAt t.last (o - 0x1_0000) 8)
  else 0

/-! ## What is answered (R563, R603, R629) -/

/-- A fault of bring-up, or a fatal error in the MC: only the ROM's list is answered. -/
def State.romOnly (s : State) : Bool := s.brg.fcause != 0 || s.mc.fatal

/-- A BAR0 access is answered. -/
def State.bar0Answers (s : State) (a : Nat) : Bool :=
  if s.brg.phase = 0 then false
  else if s.hif.dev ≠ 3 ∧ !s.mc.fatal then true
  else
    let brg := decide (0x100_0000 ≤ a ∧ a < 0x100_1000)
    let rom := decide (a = 0x000 ∨ a = 0x008) || brg
    if s.romOnly then rom || (s.fuses.kill && decide (0x100_1000 ≤ a ∧ a < 0x100_2000))
    else rom || decide (a < 0x1_0000) || decide (0x4_0000 ≤ a ∧ a < 0x6_0000) || decide (0x100_3000 ≤ a ∧ a < 0x100_4000)
      || (match mgmtCluster (a - 0x100_0000) with | some _ => decide (0x1000 ≤ a % 0x40_0000 ∧ a % 0x40_0000 < 0x2000) | none => false)

/-- A read of BAR0 (Table 18-3): zero where the spec names nothing. -/
def State.bar0Read (s : State) (a : Nat) : Word :=
  if !s.bar0Answers a then 0
  else if a < 0x1_0000 then s.readHif a
  else if a < 0x1_0400 then mget 0 s.hif.msixTab ((a - 0x1_0000) / 8)
  else if a = 0x1_0800 then BitVec.ofNat 64 ((s.hif.msixPba.map fun v => 2 ^ v).sum)
  else if 0x2_0000 ≤ a ∧ a < 0x3_0000 then s.readMbx (a - 0x2_0000)
  else if 0x4_0000 ≤ a ∧ a < 0x6_0000 then s.readLog (a - 0x4_0000)
  else if 0x8_0000 ≤ a ∧ a < 0x10_0000 then s.readTel (a - 0x8_0000)
  else if 0x100_0000 ≤ a then s.mgmtRead (a - 0x100_0000)
  else 0

/-! ## Writes -/

/-- PWR.W or PWR.E: VP and TGT, each ignored outside its values, and VP while JOB is RUNNING. -/
def State.writeHalf (s : State) (east : Bool) (v : Word) : State :=
  let h := s.half east
  let vp := fld v 20 10
  let tgt := fld v 0 10
  let okV := decide (vp = h.vp) || (vpOk vp && s.hif.job != 3)
  let okT := decide (550 ≤ tgt ∧ tgt ≤ 850 ∧ tgt % 5 = 0)
  ({ s with pwr := { s.pwr with werr := s.pwr.werr || !okV || !okT } } : State).setHalf east
    { h with vp := if okV then vp else h.vp, tgt := if okT then tgt else h.tgt }

/-- A write in PWR (R615, R623, Table 21-5). -/
def State.writePwr (s : State) (o : Nat) (v : Word) : State :=
  let p := s.pwr
  let bad : State := { s with pwr := { p with werr := true } }
  match o with
  | 0x00 => if bit v 15 then { s with pwr := { p with werr := false } } else s
  | 0x08 => if 250 ≤ fld v 0 10 ∧ fld v 0 10 ≤ 600 then { s with pwr := { p with cap := fld v 0 10 } } else bad
  | 0x10 => if 85 ≤ fld v 0 8 ∧ fld v 0 8 ≤ 110 then { s with pwr := { p with tlim := fld v 0 8 } } else bad
  | 0x18 => { s with pwr := { p with duty := fld v 0 2 } }
  | 0x20 => { s with pwr := { p with fixed := fld v 0 10 } }
  | 0x30 => s.writeHalf false v
  | 0x38 => s.writeHalf true v
  | 0x40 =>
    let w := if bit v 0 then s.halfOff false else s.halfOn false
    if bit v 1 then w.halfOff true else w.halfOn true
  | _ => s

/-- A write in an ERR block. -/
def State.writeErr (s : State) (q o : Nat) (v : Word) : State :=
  if o = 0x08 then { s with errs := mupd {} s.errs q fun x => { x with sel := pack [(fld v 32 4, 32, 4), (fld v 16 16, 16, 16), (fld v 0 8, 0, 8)] } }
  else if o = 0x40 ∧ q = 48 then
    let s1 := s.dripEnable (bit v 63)
    { s1 with mc := { s1.mc with dripFlags := BitVec.ofNat 5 (fld v 0 5) } }
  else s

/-- A write of TB.STAT's W1C bits and the other time registers. -/
def State.writeTb (s : State) (o : Nat) (v : Word) : State :=
  match o with
  | 0x00 => s.roleWrite v
  | 0x08 => { s with tbr := { s.tbr with serr := s.tbr.serr && !bit v 9, lost := s.tbr.lost && !bit v 8 } }
  | 0x10 => s.syncWrite v
  | 0x18 => { s with tbr := { s.tbr with syncset := v } }
  | _ => s

/-- A write in HBM.h. -/
def State.writeHbm (s : State) (h o : Nat) (v : Word) : State :=
  if !s.sitePresent h then s
  else if o = 0x00 then
    let s1 := s.stackEnable h (bit v 63)
    s1.setStk h { s1.stk h with hotref := bit v 1, patrol := bit v 0 }
  else if o = 0x08 ∧ bit v 9 then s.setStk h { s.stk h with refused := false }
  else s

/-- A write in a router block (R395, R399). -/
def State.writeRouter (s : State) (n o : Nat) (v : Word) : State :=
  if o = 0x0000 then
    let s1 := s.routerEnable n (bit v 63)
    s1.setRouter n { s1.router n with wdog := BitVec.ofNat 32 (fld v 0 32) }
  else if o = 0x0008 then
    let r := s.router n
    s.setRouter n { r with werr := r.werr && !bit v 16, stall := r.stall &&& ~~~(BitVec.ofNat 5 (fld v 10 5)) }
  else if 0x0400 ≤ o ∧ o < 0x3000 then s.routeWrite n o v
  else s

/-- A write in LNK.k. -/
def State.writeLnk (s : State) (k o : Nat) (v : Word) : State :=
  if !s.portPresent k then s
  else if 0x400 ≤ o then (if o < 0x3000 then s.routeWrite (linkNode k) o v else s)
  else if o = 0x000 then
    let s1 := s.portEnable k (bit v 63)
    s1.setPort k { s1.port k with fec := fld v 57 2, sparen := bit v 56, spthr := fld v 32 16 }
  else s

/-- A write of a BLX line: BRK = 1 also lets queues report a later break (R336, R343). -/
def State.writeBlx (s : State) (n : Nat) (v : Word) : State :=
  if s.blxIgnored n v then s
  else
    let s1 := s.blxWrite n v
    if bit v 0 then { s1 with cores := s1.cores.map fun p => (p.1, p.2.forgetTold fun i => i == 48 + n) } else s1

/-- A write in cluster window n. -/
def State.writeWindow (s : State) (n o : Nat) (v : Word) : State :=
  if 0x1_0000 ≤ o ∧ o < 0x1_0000 + 0x4000 * 72 then s.writeRouter (windowNode n ((o - 0x1_0000) / 0x4000)) ((o - 0x1_0000) % 0x4000) v
  else if !s.clPresent n then s
  else if o = 0 then s.clusterEnable n (bit v 63)
  else if 0x1000 ≤ o ∧ o < 0x2000 then s.writeErr n (o - 0x1000) v
  else s

/-- A write of die space; BRG.ACCEPT is the host's alone (R585). -/
def State.writeDie (s : State) (host : Bool) (o : Nat) (v : Word) : State :=
  if o = 0x0008 then (if host then s.brgAccept v else s)
  else if o = 0x1020 then (if bit v 0 then s.ext7 else s)
  else if 0x1060 ≤ o ∧ o < 0x1080 then { s with sec := { s.sec with extd := mset s.sec.extd ((o - 0x1060) / 8) v } }
  else if 0x2000 ≤ o ∧ o < 0x3000 then s.writePwr (o - 0x2000) v
  else if 0x3000 ≤ o ∧ o < 0x4000 then s.writeErr 48 (o - 0x3000) v
  else if 0x4000 ≤ o ∧ o < 0x5000 then s.writeTb (o - 0x4000) v
  else if o = 0x5000 then (if s.chipLock then s else { s with chipId := fld v 0 12, chipLock := bit v 63 })
  else if o = 0x5008 then s.jobExit v
  else if o = 0x5010 then s.msixRaise v
  else if 0x5100 ≤ o ∧ o < 0x5140 then s.writeBlx ((o - 0x5100) / 8) v
  else if o = 0x6000 then { s with pins := { s.pins with gpioOe := BitVec.ofNat 8 (fld v 8 8), gpioOut := BitVec.ofNat 8 (fld v 0 8) } }
  else if 0x1_0000 ≤ o ∧ o < 0x1_0200 then s.regionWrite ((o - 0x1_0000) / 32) (o % 32) v
  else if 0x2_0000 ≤ o ∧ o < 0x2_6000 then s.writeHbm ((o - 0x2_0000) / 0x1000) (o % 0x1000) v
  else if 0x4_0000 ≤ o ∧ o < 0x4_0000 + 8 * 4095 then
    { s with crt := mset s.crt ((o - 0x4_0000) / 8) { v := bit v 63, port := fld v 0 3 } }
  else if 0x10_0000 ≤ o ∧ o < 0x12_0000 then s.writeLnk ((o - 0x10_0000) / 0x4000) (o % 0x4000) v
  else if 0x20_0000 ≤ o ∧ o < 0x20_0000 + 0x4000 * 96 then
    (let i := (o - 0x20_0000) / 0x4000; if s.sitePresent (i / 16) then s.writeRouter (3456 + i) (o % 0x4000) v else s)
  else s

/-- A write of management space. -/
def State.mgmtWrite (s : State) (host : Bool) (o : Nat) (v : Word) : State :=
  match mgmtCluster o with
  | some n => s.writeWindow n ((o - 0x300_0000) % 0x40_0000) v
  | none => s.writeDie host o v

/-- BASE of a ring, and an index that the host writes. -/
def HRing.setBase (q : HRing) (v : Word) : HRing := if q.en then q else { q with base := BitVec.ofNat 64 (v.toNat / 4096 * 4096) }
def HRing.index (q : HRing) (v : Word) : Option Nat := if fld v 0 12 < 2 ^ q.log2n then some (fld v 0 12) else none

/-- A host write in HIF (Table 18-4). -/
def State.writeHif (s : State) (o : Nat) (v : Word) : State :=
  let h := s.hif
  let put (h : Hif) : State := s.setHif (h.flushOwed h.owed.length)
  match o with
  | 0x040 => put { h with cmdq := h.cmdq.setBase v }
  | 0x048 => s.ringCfg 0 v
  | 0x050 => put { h with cmdq := { h.cmdq with tail := (h.cmdq.index v).getD h.cmdq.tail } }
  | 0x060 => put { h with cplq := h.cplq.setBase v }
  | 0x068 => s.ringCfg 1 v
  | 0x070 => put { h with cplq := { h.cplq with head := (h.cplq.index v).getD h.cplq.head } }
  | 0x080 => put { h with evq := h.evq.setBase v }
  | 0x088 => s.ringCfg 2 v
  | 0x090 => put { h with evq := { h.evq with head := (h.evq.index v).getD h.evq.head } }
  | 0x0C0 => s.msixRaise v
  | _ => s

/-- A host write in the mailbox: GO starts a request; while BUSY everything is ignored (Table 23-5). -/
def State.writeMbx (s : State) (o : Nat) (v : Word) : State :=
  let m := s.mbx
  if m.busy then s
  else if o = 0x0000 then (if bit v 0 then { s with mbx := { m with busy := true } } else s)
  else if o = 0x0010 then { s with mbx := { m with req := pack [(fld v 32 32, 32, 32), (fld v 16 16, 16, 16), (fld v 0 8, 0, 8)] } }
  else if 0x1000 ≤ o ∧ o < 0x9000 then { s with mbx := { m with reqbuf := wrNat m.reqbuf (o - 0x1000) 8 v.toNat } }
  else s

/-- A host write in the telemetry block (Table 23-9). -/
def State.writeTel (s : State) (o : Nat) (v : Word) : State :=
  let t := s.tel
  match o with
  | 0x00 => s.telCfg v
  | 0x08 => if t.en then s else { s with tel := { t with base := BitVec.ofNat 64 (v.toNat / 65536 * 65536) } }
  | 0x10 => { s with tel := { t with head := fld v 0 8 } }
  | _ => s

/-- A host write of BAR0 (Table 18-3). -/
def State.bar0Write (s : State) (a : Nat) (v : Word) : State :=
  if !s.bar0Answers a then s
  else if a < 0x1_0000 then s.writeHif a v
  else if a < 0x1_0400 then s.setHif { s.hif with msixTab := mset s.hif.msixTab ((a - 0x1_0000) / 8) v }
  else if 0x2_0000 ≤ a ∧ a < 0x3_0000 then s.writeMbx (a - 0x2_0000) v
  else if 0x8_0000 ≤ a ∧ a < 0x10_0000 then s.writeTel (a - 0x8_0000) v
  else if 0x10_0000 ≤ a ∧ a < 0x10_6000 then s.doorbell ((a - 0x10_0000) / 8) v
  else if 0x100_0000 ≤ a then s.mgmtWrite true (a - 0x100_0000) v
  else s

/-- A register write: of kind 2 or 4 of this chip from S-mode software, else of BAR0 from the host (R19, R654). -/
def State.registerWrite (s : State) (a v : Word) : State :=
  if saKind a = 2 then s.onLive (saLcid a) fun e c => ioWrite e c none (saOff a % 65536) v
  else if saKind a = 4 then (if s.bar0Answers (saOff a + 0x100_0000) then s.mgmtWrite false (saOff a) v else s)
  else s.bar0Write (saOff a) v

/-! ## The command -/

/-- REGISTER_WRITE (R19). -/
def execRegisterWrite (a v : Word) (s : State) : Out := .next (s.registerWrite a v)

end Sys2Proof.Machine
end

