-- ==== Sys2Proof/Machine/Deliver.lean ====
section
/-! DEFINITION. The service network's deliveries: acceptance in sequence, acknowledgement, resending and giving up, and what the units answer at once (spec 12 R401 to R404, R409; 13 R413; 15 R481, R483; 22 Table 22-4). -/

namespace Sys2Proof.Machine

/-! ## What a unit answers at once -/

/-- A marked word, or the tag POISON, in a write. -/
def poisoned (pz : List Nat) (tag : Tag) : Bool := pz != [] || tag == .poison

/-- A request for a core's I/O registers (kind 2) is a whole register (Table 22-4). -/
def wholeReg (a : Word) (n : Nat) : Bool := n == 8 && saOff a % 8 == 0

/-- A read or write that reaches core l: its scratchpad (kind 1) or its I/O space (kind 2). The word of a register arrives with tag INT: the spec names no tag for it, and this is the model's choice (log entry 109). -/
def State.coreAccess (s : State) (l : Nat) (m : InMsg) : State :=
  let o := saOff m.addr % 2 ^ 24
  let io := saKind m.addr == 2
  match m.body with
  | .read a n =>
    if io then
      if wholeReg a n then
        let r := ioRead (s.env l) (s.coreAt l) none o
        (s.setCore l r.1).answer m (.readResp (leBytes 8 r.2.toNat) .int [])
      else s.answer m (.err 1)
    else s.answer m (spadRead (s.env l) (s.coreAt l) o n)
  | .write a d pz narrow tag =>
    if io then
      if !wholeReg a d.length then s.answer m (.err 1)
      else if poisoned pz tag then s.answer m (.err 4)
      else (s.onCore l fun e c => ioWrite e c none o (BitVec.ofNat 64 (leNat d))).answer m .ack
    else
      let r := spadWrite (s.env l) (s.coreAt l) o d pz narrow tag
      (s.setCore l r.1).answer m r.2
  | _ => s.inbox m

/-- A kind-4 access at the MC or a CC. -/
def State.mgmtAccess (s : State) (m : InMsg) : State :=
  let o := saOff m.addr
  match m.body with
  | .read a n => if wholeReg a n then s.answer m (.readResp (leBytes 8 (s.mgmtRead o).toNat) .int []) else s.answer m (.err 1)
  | .write a d pz _ tag =>
    if !wholeReg a d.length then s.answer m (.err 1)
    else if poisoned pz tag then s.answer m (.err 4)
    else (s.mgmtWrite false o (BitVec.ofNat 64 (leNat d))).answer m .ack
  | .inc .. => s.answer m (.err 1)
  | _ => s

/-- An accepted packet at its unit: reads and writes of cores and management space are carried out at once, the host's go to the endpoint, and everything else waits for its own command. -/
def State.deliver (s : State) (m : InMsg) : State :=
  let u := unitLocal m.unit
  if u < 3072 then
    match m.body with
    | .incLost a => s.incLost m.unit m.xid a
    | _ => s.coreAccess u m
  else if u = unitPcie then s.hostAccess m
  else if u = unitMc ∨ (4096 ≤ u ∧ u < 8192) then s.mgmtAccess m
  else s.inbox m

/-- The unit answers at all: management space after DEV FAILED only in part (R563, R629). -/
def State.unitAnswers (s : State) (u : Nat) (a : Word) : Bool :=
  let l := unitLocal u
  if l = unitMc ∨ (4096 ≤ l ∧ l < 8192) then s.bar0Answers (saOff a + 0x100_0000) else true

/-! ## Acceptance (R404) -/

/-- Removing packet i. -/
def dropAt {α : Type} : Nat → List α → List α
  | _, [] => []
  | 0, _ :: r => r
  | k + 1, x :: r => x :: dropAt k r

def State.setOut (s : State) (out : List SvcPkt) : State := { s with svc := { s.svc with out := out } }

/-- Acknowledging packet i: its source here learns of it by SVC_ACK_ARRIVAL, a source elsewhere by a message on the link. -/
def State.acknowledge (s : State) (i : Nat) (p : SvcPkt) : State :=
  if p.foreign then
    let s1 := s.setOut (dropAt i s.svc.out)
    s1.svcReturn p none
  else s.setOut (s.svc.out.zipIdx.map fun x => if x.2 = i then { x.1 with arrived := true } else x.1)

/-- Where a packet that has reached this chip goes: the target its source found, checked again for cores and for packets from other chips. -/
def State.target (s : State) (p : SvcPkt) : Except Nat (Nat × Option Nat) :=
  if p.foreign ∨ unitLocal p.dst < 3072 then s.svcTarget (12000 + p.inPort) p.addr
  else match unitEast p.dst with
    | some east => if (s.half east).on then .ok (p.dst, p.phys) else .error 5
    | none => .ok (p.dst, p.phys)

/-- A packet of another chip for another chip goes on by this chip's CRT (R483). -/
def State.transit (s : State) (i : Nat) (p : SvcPkt) : State :=
  if s.chipId = 4095 then s.svcBounce p 2
  else match s.portTo (unitChip p.dst) with
    | none => s.svcBounce p 2
    | some k => if (s.port k).up then (s.setOut (dropAt i s.svc.out)).toPort k p.cells else s.svcBounce p 7

/-- An earlier packet of the same source and class still waits at its core for its own command: the packets of a flow act in the order sent (R368, R403, R418). -/
def State.flowWaits (s : State) (u : Nat) (p : SvcPkt) : Bool :=
  decide (unitLocal u < 3072) && s.svc.inbox.any fun m => m.unit == u && m.src == p.src && m.body.cls == p.cls

/-- SVC_PACKET_ARRIVAL: packet i reaches its destination: the next expected one is accepted, a duplicate discarded and acknowledged again, any other discarded. -/
def State.svcArrival (s : State) (i : Nat) : State :=
  match s.svc.out[i]? with
  | none => s
  | some p =>
    if p.arrived then s
    else if unitChip p.dst ≠ s.chipId then (if p.foreign then s.transit i p else s)
    else if s.colHolds p then s
    else
      let k := seqKey p.src p.dst p.cls
      let want := mget 0 s.svc.expect k
      if p.seq ≠ want then (if (want + 65536 - p.seq) % 65536 ≤ 32768 then s.acknowledge i p else s)
      else match s.target p with
        | .error kind => ({ s with svc := { s.svc with expect := mset s.svc.expect k ((want + 1) % 65536) } } : State).svcBounce p kind
        | .ok (u, phys) =>
          if !s.unitAnswers u p.addr ∨ s.flowWaits u p then s
          else
            let s1 : State := { s with svc := { s.svc with expect := mset s.svc.expect k ((want + 1) % 65536) } }
            (s1.acknowledge i p).deliver { unit := u, src := p.src, addr := p.addr, back := p.back, xid := p.xid, body := p.body, phys := phys }

/-- SVC_ACK_ARRIVAL: the source frees its copy. -/
def State.svcAck (s : State) (i : Nat) : State :=
  match s.svc.out[i]? with
  | some p => if p.arrived then s.setOut (dropAt i s.svc.out) else s
  | none => s

/-- Two packets of one source, destination and class. -/
def SvcPkt.sameFlow (p q : SvcPkt) : Bool := p.src == q.src && p.dst == q.dst && p.cls == q.cls

/-- The source gives up packet i: an increment may be lost, a far access meets an error of kind 8, any other kind of packet is reported to the source's CC (R334, R404). -/
def State.giveUp (s : State) (i : Nat) (p : SvcPkt) : State :=
  let s1 := s.setOut (dropAt i s.svc.out)
  match p.body with
  | .inc a _ => s1.incLost p.src p.xid a
  | .read .. | .write .. => s1.inbox { unit := p.src, src := p.src, addr := p.back, back := p.addr, xid := p.xid, body := .err 8 }
  | _ =>
    let l := unitLocal p.src
    if l < 3072 then s1.coreRecord l 0 0x0B 2 p.cls (saOff p.addr)
    else if 4096 ≤ l ∧ l < 4144 then s1.record { cls := 0x0B, sev := 2, ukind := 2, lunit := l - 4096, key := p.cls, detail := saOff p.addr }
    else s1.mcRecord 0x0B 2 p.cls (saOff p.addr)

/-- SVC_RESEND_TIMEOUT: 4,096 ticks without an acknowledgement. A packet that its destination has accepted is sent again too while its acknowledgement has not come: the destination discards the duplicate and acknowledges it again. A port that has gone answers failed path (R478), a route that has gone unmapped chip (R483). -/
def State.svcTimeout (s : State) (i : Nat) : State :=
  match s.svc.out[i]? with
  | none => s
  | some p =>
    if p.foreign ∨ s.tb < p.sentAt + 4096 then s
    else if 7 ≤ p.tries then s.giveUp i p
    else
      let again (q : SvcPkt) : Bool := q.sameFlow p && !q.foreign
      let s1 := s.setOut (s.svc.out.map fun q => if again q then { q with sentAt := s.tb, tries := q.tries + 1 } else q)
      let flow := s.svc.out.filter again
      if unitChip p.dst = s.chipId then s1
      else match s1.portTo (unitChip p.dst) with
        | some k => if (s1.port k).up then s1.toPort k (flow.flatMap SvcPkt.cells) else flow.foldl (fun t q => t.svcBounce q 7) s1
        | none => flow.foldl (fun t q => t.svcBounce q 2) s1

/-! ## The commands -/

/-- SVC_PACKET_ARRIVAL (R404). -/
def execSvcPacketArrival (i : Nat) (s : State) : Out := .next (s.svcArrival i)
/-- SVC_ACK_ARRIVAL (R404). -/
def execSvcAckArrival (i : Nat) (s : State) : Out := .next (s.svcAck i)
/-- SVC_RESEND_TIMEOUT (R404). -/
def execSvcResendTimeout (i : Nat) (s : State) : Out := .next (s.svcTimeout i)

end Sys2Proof.Machine
end

