-- ==== Sys2Proof/Machine/ExecCtl.lean ====
section
/-! DEFINITION. Meanings: branches, loops and the system group (spec 03 R118 to R122, Table 3-14; 04). Each issues its word in the thread that has fetched it. -/

namespace Sys2Proof.Machine

/-- BCC (R119). -/
def execBcc (c : CoreId) (t : Thr) (ra : Reg) (cond : BitVec 3) (off : BitVec 18) (s : State) : Out :=
  s.word c t (fun _ _ => { noSlot := true, loopEnd := true, branch := true, illegal := cond == 7 }) (opBcc ra.val cond.toNat off)

/-- JAL (R120). -/
def execJal (c : CoreId) (t : Thr) (rd : Reg) (off : BitVec 21) (s : State) : Out :=
  s.word c t (fun _ _ => { writes := [rd.val], noSlot := true, loopEnd := true, branch := true }) (opJal rd.val off)

/-- JALR (R120). -/
def execJalr (c : CoreId) (t : Thr) (rd : Reg) (ra : Reg) (s : State) : Out :=
  s.word c t (fun _ _ => { writes := [rd.val], noSlot := true, loopEnd := true, branch := true }) (opJalr rd.val ra.val)

/-- LOOP (R121). -/
def execLoop (c : CoreId) (t : Thr) (lv : Bool) (ra : Reg) (imm : BitVec 13) (s : State) : Out :=
  s.word c t (fun _ _ => { noSlot := true, loopEnd := true, illegal := imm == 0 }) (opLoop lv ra.val imm)

/-- MFT (R120). -/
def execMft (c : CoreId) (t : Thr) (rd : Reg) (sel : BitVec 13) (s : State) : Out :=
  s.word c t (fun _ _ => { writes := [rd.val], illegal := decide (6 < sel.toNat) }) (opMft rd.val sel.toNat)

/-- MTT (R120). -/
def execMtt (c : CoreId) (t : Thr) (ra : Reg) (sel : BitVec 13) (s : State) : Out :=
  s.word c t (fun _ _ => { illegal := decide (6 < sel.toNat) }) (opMtt ra.val sel.toNat)

/-- SYSC (R142). -/
def execSysc (c : CoreId) (t : Thr) (n : BitVec 8) (s : State) : Out :=
  s.word c t (fun _ _ => { noSlot := true, illegal := decide (7 < n.toNat) }) (opSysc n.toNat)

/-- SYSRET (R139). -/
def execSysret (c : CoreId) (t : Thr) (s : State) : Out :=
  s.word c t (fun _ _ => { noSlot := true, priv := true }) opRetx

/-- TRAP (R143). -/
def execTrap (c : CoreId) (t : Thr) (n : BitVec 8) (s : State) : Out :=
  s.word c t (fun _ _ => { noSlot := true, illegal := !(s.coreAt c.val).vecmode }) (opTrap n.toNat)

/-- RETX (R139). -/
def execRetx (c : CoreId) (t : Thr) (s : State) : Out :=
  s.word c t (fun _ _ => { noSlot := true, priv := true }) opRetx

/-- RETD (R139). -/
def execRetd (c : CoreId) (t : Thr) (s : State) : Out :=
  s.word c t (fun _ _ => { noSlot := true, priv := true }) opRetd

/-- SETM (R129). -/
def execSetm (c : CoreId) (t : Thr) (m : BitVec 8) (s : State) : Out :=
  s.word c t (fun _ _ => { noSlot := true, priv := true, illegal := decide (1 < m.toNat) }) (opSetm (m == 1))

/-- ARM (R138). -/
def execArm (c : CoreId) (t : Thr) (s : State) : Out :=
  s.word c t (fun _ _ => { priv := true }) opArm

end Sys2Proof.Machine
end

