-- ==== Sys2Proof/Machine/ExecEngine.lean ====
section
/-! DEFINITION. Meanings: the engines' queues, windows, parking and recovery, rings, and the DMA channels as events (spec 05 R181 to R197; 07 R259 to R267; 08 R286 to R293; 09; 02 R52 to R54). -/

namespace Sys2Proof.Machine

/-- A step of an engine: none while the chip has failed or THERMTRIP holds the engines (R620, R629), or THROTTLE_N holds them at duty 0 (R619). -/
def State.engineEvent (s : State) (c : CoreId) (f : Env → Core → Core × List Emit) : Out :=
  if s.dead ∨ (s.pins.throttle ∧ s.pwr.duty = 0) then .next s else s.event c f

/-- An event of the MXE's control block, which a V-core does not have (R41). -/
def State.mxeEvent (s : State) (c : CoreId) (f : Env → Core → Core × List Emit) : Out :=
  s.event c fun e k => if e.vcore then (k, []) else f e k

/-- ENGINE_COMMAND_START (R54, R259, R286). -/
def execEngineCommandStart (c : CoreId) (k : Fin 4) (s : State) : Out := s.engineEvent c fun e x => engineStart e x k.val
/-- ENGINE_COMMAND_COMPLETE (R52). -/
def execEngineCommandComplete (c : CoreId) (k : Fin 4) (s : State) : Out := s.engineEvent c fun e x => engineComplete e x k.val
/-- ENGINE_PARKED (R159, R160, R262). -/
def execEngineParked (c : CoreId) (k : Fin 4) (row : Nat) (s : State) : Out := s.engineEvent c fun e x => engineParked e x k.val row

/-- MXE_RETRY (R261). -/
def execMxeRetry (c : CoreId) (s : State) : Out := s.mxeEvent c fun _ k => (engRetry k 0, [])
/-- MXE_DROP (R266). -/
def execMxeDrop (c : CoreId) (s : State) : Out := s.mxeEvent c fun e k => engineDrop e k 0
/-- MXE_PUSH (R266). -/
def execMxePush (c : CoreId) (s : State) : Out := s.mxeEvent c fun e k => (enginePush e k 0, [])

/-- MXE_TDATA_ACCESS: a write with a word, a read without; each moves WORD on (R265). -/
def execMxeTdataAccess (c : CoreId) (w : Option Word) (s : State) : Out :=
  s.mxeEvent c fun _ k =>
    match w with
    | some v => (tdataWrite k v, [])
    | none => (if k.mxe.eng.parked then { k with mxe := k.mxe.stepWord } else k, [])

/-- MXE_TAG_WRITE (R265, R267). -/
def execMxeTagWrite (c : CoreId) (k : Fin 3) (v : Word) (s : State) : Out := s.mxeEvent c fun _ x => (mxeTagWrite x k.val v, [])

/-- VXE_RETRY (R291). -/
def execVxeRetry (c : CoreId) (s : State) : Out := s.event' c fun _ k => engRetry k 1
/-- VXE_DROP (R291, R293). -/
def execVxeDrop (c : CoreId) (s : State) : Out := s.event c fun e k => engineDrop e k 1
/-- VXE_PUSH (R293). -/
def execVxePush (c : CoreId) (s : State) : Out := s.event' c fun e k => enginePush e k 1
/-- VXE_DEFAULT (R291). -/
def execVxeDefault (c : CoreId) (s : State) : Out := s.event c vxeDefault

/-- VXE_VDATA_ACCESS (R293). -/
def execVxeVdataAccess (c : CoreId) (w : Option Word) (s : State) : Out :=
  s.event' c fun _ k =>
    match w with
    | some v => vdataWrite k v
    | none => if k.vxe.eng.parked then { k with vxe := { k.vxe with word := (k.vxe.word + 1) % 16 } } else k

/-- RING_ENABLE (R182). -/
def execRingEnable (c : CoreId) (n : Fin 16) (s : State) : Out := s.event' c fun _ k => ringEnable k n.val
/-- RING_DISABLE (R183, R369). -/
def execRingDisable (c : CoreId) (n : Fin 16) (s : State) : Out := s.event c fun e k => ringDisable e k n.val
/-- RING_START (R182). -/
def execRingStart (c : CoreId) (n : Fin 16) (s : State) : Out := s.event' c fun e k => ringStart e k n.val
/-- RING_STOP_COMPLETE (R183). -/
def execRingStopComplete (c : CoreId) (n : Fin 16) (s : State) : Out := s.event' c fun _ k => ringStop k n.val
/-- RING_ADV (R187). -/
def execRingAdv (c : CoreId) (n : Fin 16) (h t : BitVec 16) (s : State) : Out := s.event c fun e k => ringAdv e k n.val h.toNat t.toNat
/-- MESSAGE_INJECT (R361, R362, R368). -/
def execMessageInject (c : CoreId) (s : State) : Out := s.event c messageInject

/-- DMA_ENABLE (R318). -/
def execDmaEnable (c : CoreId) (ch : Fin 2) (s : State) : Out := s.event' c fun _ k => dmaEnable k ch.val true
/-- DMA_DISABLE (R318). -/
def execDmaDisable (c : CoreId) (ch : Fin 2) (s : State) : Out := s.event' c fun _ k => dmaEnable k ch.val false
/-- DMA_START (R318). -/
def execDmaStart (c : CoreId) (ch : Fin 2) (s : State) : Out := s.event' c fun _ k => dmaStart k ch.val
/-- DMA_STOP_COMPLETE (R318). -/
def execDmaStopComplete (c : CoreId) (ch : Fin 2) (s : State) : Out := s.event' c fun _ k => dmaStop k ch.val
/-- DMA_BURST_START (R304, R306). -/
def execDmaBurstStart (c : CoreId) (ch : Fin 2) (s : State) : Out := s.engineEvent c fun e k => burstStart e k ch.val
/-- DMA_REQUEST_PULSE (R305). -/
def execDmaRequestPulse (c : CoreId) (ch : Fin 2) (s : State) : Out := s.event' c fun _ k => k.pulse ch.val
/-- DMA_TRANSFER_COMPLETE (R312). -/
def execDmaTransferComplete (c : CoreId) (ch : Fin 2) (s : State) : Out := s.engineEvent c fun e k => transferComplete e k ch.val
/-- DMA_STATUS_WRITTEN (R316). -/
def execDmaStatusWritten (c : CoreId) (ch : Fin 2) (s : State) : Out := s.event c fun e k => statusWritten e k ch.val
/-- DMA_RESUME (R317). -/
def execDmaResume (c : CoreId) (ch : Fin 2) (s : State) : Out := s.event' c fun _ k => dmaResume k ch.val
/-- DMA_DROP (R317). -/
def execDmaDrop (c : CoreId) (ch : Fin 2) (s : State) : Out := s.event c fun e k => dmaDrop e k ch.val
/-- DMA_PUSH (R320). -/
def execDmaPush (c : CoreId) (ch : Fin 2) (s : State) : Out := s.event' c fun e k => enginePush e k (2 + ch.val)

/-- SC_CLEAR (R323). -/
def execScClear (c : CoreId) (m : BitVec 48) (s : State) : Out := s.event' c fun _ k => k.scClear m
/-- BGEN_CLEAR (R347). -/
def execBgenClear (c : CoreId) (m : BitVec 8) (s : State) : Out := s.event' c fun _ k => k.bgenClear m

/-- CHI_ENABLE (R355). -/
def execChiEnable (c : CoreId) (n : Fin 64) (s : State) : Out := s.event' c fun _ k => chiOpen k n.val
/-- CHI_DISABLE (R369). -/
def execChiDisable (c : CoreId) (n : Fin 64) (s : State) : Out := s.event c fun e k => chiClose e k n.val true
/-- CHO_ENABLE (R353). -/
def execChoEnable (c : CoreId) (n : Fin 64) (s : State) : Out := s.event c fun e k => choOpen e k n.val
/-- CHO_DISABLE (R353). -/
def execChoDisable (c : CoreId) (n : Fin 64) (s : State) : Out := s.event' c fun e k => choClose e k n.val

/-- PACE_BOUNDARY (R525 to R528). -/
def execPaceBoundary (c : CoreId) (s : State) : Out := s.event c paceBoundary
/-- PACE_MODE_SET (R535). -/
def execPaceModeSet (c : CoreId) (s : State) : Out := s.event' c paceSet
/-- PACE_MODE_CLEAR (R535). -/
def execPaceModeClear (c : CoreId) (s : State) : Out := s.event c paceClear

end Sys2Proof.Machine
end

