-- ==== Sys2Proof/Machine/ExecFlt.lean ====
section
/-! DEFINITION. Meanings: the binary64 instructions and conversions (spec 03 R102 to R104). Each issues its word in the thread that has fetched it. -/

namespace Sys2Proof.Machine

/-- FADD (R103). -/
def execFadd (c : CoreId) (t : Thr) (rd : Reg) (ra : Reg) (rb : Reg) (rm : BitVec 3) (s : State) : Out :=
  s.word c t (fun _ => fpInfo rd.val rm.toNat) (fp2 rd.val ra.val rb.val rm.toNat fun r a b => fltRes (b64.add r a b))

/-- FSUB (R103). -/
def execFsub (c : CoreId) (t : Thr) (rd : Reg) (ra : Reg) (rb : Reg) (rm : BitVec 3) (s : State) : Out :=
  s.word c t (fun _ => fpInfo rd.val rm.toNat) (fp2 rd.val ra.val rb.val rm.toNat fun r a b => fltRes (b64.sub r a b))

/-- FMUL (R103). -/
def execFmul (c : CoreId) (t : Thr) (rd : Reg) (ra : Reg) (rb : Reg) (rm : BitVec 3) (s : State) : Out :=
  s.word c t (fun _ => fpInfo rd.val rm.toNat) (fp2 rd.val ra.val rb.val rm.toNat fun r a b => fltRes (b64.mul r a b))

/-- FDIV (R103). -/
def execFdiv (c : CoreId) (t : Thr) (rd : Reg) (ra : Reg) (rb : Reg) (rm : BitVec 3) (s : State) : Out :=
  s.word c t (fun _ => fpInfo rd.val rm.toNat) (fp2 rd.val ra.val rb.val rm.toNat fun r a b => fltRes (b64.div r a b))

/-- FSQRT (R103). -/
def execFsqrt (c : CoreId) (t : Thr) (rd : Reg) (ra : Reg) (rm : BitVec 3) (s : State) : Out :=
  s.word c t (fun _ => fpInfo rd.val rm.toNat) (fp1 rd.val ra.val rm.toNat fun r a => fltRes (b64.sqrt r a))

/-- FREM (R103). -/
def execFrem (c : CoreId) (t : Thr) (rd : Reg) (ra : Reg) (rb : Reg) (s : State) : Out :=
  s.word c t (fun _ => writesReg rd.val) (fp2 rd.val ra.val rb.val 0 fun r a b => fltRes (b64.rem a b))

/-- FMIN (R103). -/
def execFmin (c : CoreId) (t : Thr) (rd : Reg) (ra : Reg) (rb : Reg) (s : State) : Out :=
  s.word c t (fun _ => writesReg rd.val) (fp2 rd.val ra.val rb.val 0 fun r a b => fltRes (b64.minimum a b))

/-- FMAX (R103). -/
def execFmax (c : CoreId) (t : Thr) (rd : Reg) (ra : Reg) (rb : Reg) (s : State) : Out :=
  s.word c t (fun _ => writesReg rd.val) (fp2 rd.val ra.val rb.val 0 fun r a b => fltRes (b64.maximum a b))

/-- FMINN (R103). -/
def execFminn (c : CoreId) (t : Thr) (rd : Reg) (ra : Reg) (rb : Reg) (s : State) : Out :=
  s.word c t (fun _ => writesReg rd.val) (fp2 rd.val ra.val rb.val 0 fun r a b => fltRes (b64.numForm b64.minimum a b))

/-- FMAXN (R103). -/
def execFmaxn (c : CoreId) (t : Thr) (rd : Reg) (ra : Reg) (rb : Reg) (s : State) : Out :=
  s.word c t (fun _ => writesReg rd.val) (fp2 rd.val ra.val rb.val 0 fun r a b => fltRes (b64.numForm b64.maximum a b))

/-- FEQ (R103). -/
def execFeq (c : CoreId) (t : Thr) (rd : Reg) (ra : Reg) (rb : Reg) (s : State) : Out :=
  s.word c t (fun _ => writesReg rd.val) (fp2 rd.val ra.val rb.val 0 fun r a b => cmpRes (b64.cmpEq a b))

/-- FLT (R103). -/
def execFlt (c : CoreId) (t : Thr) (rd : Reg) (ra : Reg) (rb : Reg) (s : State) : Out :=
  s.word c t (fun _ => writesReg rd.val) (fp2 rd.val ra.val rb.val 0 fun r a b => cmpRes (b64.cmpLt a b))

/-- FLE (R103). -/
def execFle (c : CoreId) (t : Thr) (rd : Reg) (ra : Reg) (rb : Reg) (s : State) : Out :=
  s.word c t (fun _ => writesReg rd.val) (fp2 rd.val ra.val rb.val 0 fun r a b => cmpRes (b64.cmpLe a b))

/-- FUN (R103). -/
def execFun (c : CoreId) (t : Thr) (rd : Reg) (ra : Reg) (rb : Reg) (s : State) : Out :=
  s.word c t (fun _ => writesReg rd.val) (fp2 rd.val ra.val rb.val 0 fun r a b => cmpRes (b64.cmpUn a b))

/-- FCPYS (R103). -/
def execFcpys (c : CoreId) (t : Thr) (rd : Reg) (ra : Reg) (rb : Reg) (s : State) : Out :=
  s.word c t (fun _ => writesReg rd.val) (fp2 rd.val ra.val rb.val 0 fun r a b => fltRes (b64.copySign a b, fNone))

/-- FNEG (R103). -/
def execFneg (c : CoreId) (t : Thr) (rd : Reg) (ra : Reg) (s : State) : Out :=
  s.word c t (fun _ => writesReg rd.val) (fp1 rd.val ra.val 0 fun r a => fltRes (b64.neg a, fNone))

/-- FABS (R103). -/
def execFabs (c : CoreId) (t : Thr) (rd : Reg) (ra : Reg) (s : State) : Out :=
  s.word c t (fun _ => writesReg rd.val) (fp1 rd.val ra.val 0 fun r a => fltRes (b64.abs a, fNone))

/-- FSCALB (R103). -/
def execFscalb (c : CoreId) (t : Thr) (rd : Reg) (ra : Reg) (rb : Reg) (rm : BitVec 3) (s : State) : Out :=
  s.word c t (fun _ => fpInfo rd.val rm.toNat) (opFscalb rd.val ra.val rb.val rm.toNat)

/-- FLOGB (R103). -/
def execFlogb (c : CoreId) (t : Thr) (rd : Reg) (ra : Reg) (s : State) : Out :=
  s.word c t (fun _ => writesReg rd.val) (fp1 rd.val ra.val 0 fun r a => intRes (logbInt a))

/-- FRINT (R103). -/
def execFrint (c : CoreId) (t : Thr) (rd : Reg) (ra : Reg) (rm : BitVec 3) (s : State) : Out :=
  s.word c t (fun _ => fpInfo rd.val rm.toNat) (fp1 rd.val ra.val rm.toNat fun r a => fltRes (b64.rint r false a))

/-- FRINTX (R103). -/
def execFrintx (c : CoreId) (t : Thr) (rd : Reg) (ra : Reg) (rm : BitVec 3) (s : State) : Out :=
  s.word c t (fun _ => fpInfo rd.val rm.toNat) (fp1 rd.val ra.val rm.toNat fun r a => fltRes (b64.rint r true a))

/-- FNUP (R103). -/
def execFnup (c : CoreId) (t : Thr) (rd : Reg) (ra : Reg) (s : State) : Out :=
  s.word c t (fun _ => writesReg rd.val) (fp1 rd.val ra.val 0 fun r a => fltRes (b64.nextUp a))

/-- FNDN (R103). -/
def execFndn (c : CoreId) (t : Thr) (rd : Reg) (ra : Reg) (s : State) : Out :=
  s.word c t (fun _ => writesReg rd.val) (fp1 rd.val ra.val 0 fun r a => fltRes (b64.nextDown a))

/-- FCLASS (R103). -/
def execFclass (c : CoreId) (t : Thr) (rd : Reg) (ra : Reg) (s : State) : Out :=
  s.word c t (fun _ => writesReg rd.val) (fp1 rd.val ra.val 0 fun r a => intRes (((2 ^ b64.classBit a : Nat) : Int), fNone))

/-- FMA (R104). -/
def execFma (c : CoreId) (t : Thr) (rd : Reg) (ra : Reg) (rb : Reg) (rc : Reg) (rm : BitVec 3) (s : State) : Out :=
  s.word c t (fun _ => fpInfo rd.val rm.toNat) (opFma rd.val ra.val rb.val rc.val rm.toNat false false)

/-- FMS (R104). -/
def execFms (c : CoreId) (t : Thr) (rd : Reg) (ra : Reg) (rb : Reg) (rc : Reg) (rm : BitVec 3) (s : State) : Out :=
  s.word c t (fun _ => fpInfo rd.val rm.toNat) (opFma rd.val ra.val rb.val rc.val rm.toNat false true)

/-- FNMA (R104). -/
def execFnma (c : CoreId) (t : Thr) (rd : Reg) (ra : Reg) (rb : Reg) (rc : Reg) (rm : BitVec 3) (s : State) : Out :=
  s.word c t (fun _ => fpInfo rd.val rm.toNat) (opFma rd.val ra.val rb.val rc.val rm.toNat true false)

/-- FNMS (R104). -/
def execFnms (c : CoreId) (t : Thr) (rd : Reg) (ra : Reg) (rb : Reg) (rc : Reg) (rm : BitVec 3) (s : State) : Out :=
  s.word c t (fun _ => fpInfo rd.val rm.toNat) (opFma rd.val ra.val rb.val rc.val rm.toNat true true)

/-- FCVT_I (R103). -/
def execFcvtI (c : CoreId) (t : Thr) (rd : Reg) (ra : Reg) (rm : BitVec 3) (s : State) : Out :=
  s.word c t (fun _ => fpInfo rd.val rm.toNat) (fp1 rd.val ra.val rm.toNat fun r a => intRes (b64.toInt r (-9223372036854775808) 9223372036854775807 a))

/-- FCVT_U (R103). -/
def execFcvtU (c : CoreId) (t : Thr) (rd : Reg) (ra : Reg) (rm : BitVec 3) (s : State) : Out :=
  s.word c t (fun _ => fpInfo rd.val rm.toNat) (fp1 rd.val ra.val rm.toNat fun r a => intRes (b64.toInt r 0 18446744073709551615 a))

/-- ICVT_F (R103). -/
def execIcvtF (c : CoreId) (t : Thr) (rd : Reg) (ra : Reg) (rm : BitVec 3) (s : State) : Out :=
  s.word c t (fun _ => fpInfo rd.val rm.toNat) (opIcvt rd.val ra.val rm.toNat true)

/-- UCVT_F (R103). -/
def execUcvtF (c : CoreId) (t : Thr) (rd : Reg) (ra : Reg) (rm : BitVec 3) (s : State) : Out :=
  s.word c t (fun _ => fpInfo rd.val rm.toNat) (opIcvt rd.val ra.val rm.toNat false)

/-- FCVT_S (R103). -/
def execFcvtS (c : CoreId) (t : Thr) (rd : Reg) (ra : Reg) (rm : BitVec 3) (s : State) : Out :=
  s.word c t (fun _ => fpInfo rd.val rm.toNat) (fp1 rd.val ra.val rm.toNat fun r a => let x := b64.convert b32 r a; (traw (BitVec.ofNat 64 x.1), x.2))

/-- SCVT_F (R103). -/
def execScvtF (c : CoreId) (t : Thr) (rd : Reg) (ra : Reg) (s : State) : Out :=
  s.word c t (fun _ => writesReg rd.val) (opScvt rd.val ra.val)

end Sys2Proof.Machine
end

