-- ==== Sys2Proof/Machine/ExecInt.lean ====
section
/-! DEFINITION. Meanings: the integer instructions (spec 03 R99 to R101). Each issues its word in the thread that has fetched it. -/

namespace Sys2Proof.Machine

/-- ADD (R99). -/
def execAdd (c : CoreId) (t : Thr) (rd : Reg) (ra : Reg) (rb : Reg) (s : State) : Out :=
  s.word c t (fun _ => writesReg rd.val) (opAdd rd.val ra.val rb.val)

/-- SUB (R99). -/
def execSub (c : CoreId) (t : Thr) (rd : Reg) (ra : Reg) (rb : Reg) (s : State) : Out :=
  s.word c t (fun _ => writesReg rd.val) (opSub rd.val ra.val rb.val)

/-- AND (R99). -/
def execAnd (c : CoreId) (t : Thr) (rd : Reg) (ra : Reg) (rb : Reg) (s : State) : Out :=
  s.word c t (fun _ => writesReg rd.val) (int2 rd.val ra.val rb.val (fun a b => a &&& b))

/-- OR (R99). -/
def execOr (c : CoreId) (t : Thr) (rd : Reg) (ra : Reg) (rb : Reg) (s : State) : Out :=
  s.word c t (fun _ => writesReg rd.val) (int2 rd.val ra.val rb.val (fun a b => a ||| b))

/-- XOR (R99). -/
def execXor (c : CoreId) (t : Thr) (rd : Reg) (ra : Reg) (rb : Reg) (s : State) : Out :=
  s.word c t (fun _ => writesReg rd.val) (int2 rd.val ra.val rb.val (fun a b => a ^^^ b))

/-- SHL (R99). -/
def execShl (c : CoreId) (t : Thr) (rd : Reg) (ra : Reg) (rb : Reg) (s : State) : Out :=
  s.word c t (fun _ => writesReg rd.val) (int2 rd.val ra.val rb.val (fun a b => a <<< (b.toNat % 64)))

/-- SHR (R99). -/
def execShr (c : CoreId) (t : Thr) (rd : Reg) (ra : Reg) (rb : Reg) (s : State) : Out :=
  s.word c t (fun _ => writesReg rd.val) (int2 rd.val ra.val rb.val (fun a b => a >>> (b.toNat % 64)))

/-- SRA (R99). -/
def execSra (c : CoreId) (t : Thr) (rd : Reg) (ra : Reg) (rb : Reg) (s : State) : Out :=
  s.word c t (fun _ => writesReg rd.val) (int2 rd.val ra.val rb.val (fun a b => a.sshiftRight (b.toNat % 64)))

/-- MUL (R99). -/
def execMul (c : CoreId) (t : Thr) (rd : Reg) (ra : Reg) (rb : Reg) (s : State) : Out :=
  s.word c t (fun _ => writesReg rd.val) (int2 rd.val ra.val rb.val (fun a b => a * b))

/-- MULH (R99). -/
def execMulh (c : CoreId) (t : Thr) (rd : Reg) (ra : Reg) (rb : Reg) (s : State) : Out :=
  s.word c t (fun _ => writesReg rd.val) (int2 rd.val ra.val rb.val mulHigh)

/-- MULHU (R99). -/
def execMulhu (c : CoreId) (t : Thr) (rd : Reg) (ra : Reg) (rb : Reg) (s : State) : Out :=
  s.word c t (fun _ => writesReg rd.val) (int2 rd.val ra.val rb.val mulHighU)

/-- DIV (R99). -/
def execDiv (c : CoreId) (t : Thr) (rd : Reg) (ra : Reg) (rb : Reg) (s : State) : Out :=
  s.word c t (fun _ => writesReg rd.val) (int2 rd.val ra.val rb.val divSigned)

/-- DIVU (R99). -/
def execDivu (c : CoreId) (t : Thr) (rd : Reg) (ra : Reg) (rb : Reg) (s : State) : Out :=
  s.word c t (fun _ => writesReg rd.val) (int2 rd.val ra.val rb.val divUnsigned)

/-- REM (R99). -/
def execRem (c : CoreId) (t : Thr) (rd : Reg) (ra : Reg) (rb : Reg) (s : State) : Out :=
  s.word c t (fun _ => writesReg rd.val) (int2 rd.val ra.val rb.val remSigned)

/-- REMU (R99). -/
def execRemu (c : CoreId) (t : Thr) (rd : Reg) (ra : Reg) (rb : Reg) (s : State) : Out :=
  s.word c t (fun _ => writesReg rd.val) (int2 rd.val ra.val rb.val remUnsigned)

/-- MIN (R99). -/
def execMin (c : CoreId) (t : Thr) (rd : Reg) (ra : Reg) (rb : Reg) (s : State) : Out :=
  s.word c t (fun _ => writesReg rd.val) (int2 rd.val ra.val rb.val (fun a b => if a.slt b then a else b))

/-- MAX (R99). -/
def execMax (c : CoreId) (t : Thr) (rd : Reg) (ra : Reg) (rb : Reg) (s : State) : Out :=
  s.word c t (fun _ => writesReg rd.val) (int2 rd.val ra.val rb.val (fun a b => if a.slt b then b else a))

/-- MINU (R99). -/
def execMinu (c : CoreId) (t : Thr) (rd : Reg) (ra : Reg) (rb : Reg) (s : State) : Out :=
  s.word c t (fun _ => writesReg rd.val) (int2 rd.val ra.val rb.val (fun a b => if a.ult b then a else b))

/-- MAXU (R99). -/
def execMaxu (c : CoreId) (t : Thr) (rd : Reg) (ra : Reg) (rb : Reg) (s : State) : Out :=
  s.word c t (fun _ => writesReg rd.val) (int2 rd.val ra.val rb.val (fun a b => if a.ult b then b else a))

/-- CEQ (R99). -/
def execCeq (c : CoreId) (t : Thr) (rd : Reg) (ra : Reg) (rb : Reg) (s : State) : Out :=
  s.word c t (fun _ => writesReg rd.val) (int2 rd.val ra.val rb.val (fun a b => boolWord (a == b)))

/-- CLT (R99). -/
def execClt (c : CoreId) (t : Thr) (rd : Reg) (ra : Reg) (rb : Reg) (s : State) : Out :=
  s.word c t (fun _ => writesReg rd.val) (int2 rd.val ra.val rb.val (fun a b => boolWord (a.slt b)))

/-- CLTU (R99). -/
def execCltu (c : CoreId) (t : Thr) (rd : Reg) (ra : Reg) (rb : Reg) (s : State) : Out :=
  s.word c t (fun _ => writesReg rd.val) (int2 rd.val ra.val rb.val (fun a b => boolWord (a.ult b)))

/-- CLZ (R99). -/
def execClz (c : CoreId) (t : Thr) (rd : Reg) (ra : Reg) (s : State) : Out :=
  s.word c t (fun _ => writesReg rd.val) (int1 rd.val ra.val clzWord)

/-- CTZ (R99). -/
def execCtz (c : CoreId) (t : Thr) (rd : Reg) (ra : Reg) (s : State) : Out :=
  s.word c t (fun _ => writesReg rd.val) (int1 rd.val ra.val ctzWord)

/-- POPC (R99). -/
def execPopc (c : CoreId) (t : Thr) (rd : Reg) (ra : Reg) (s : State) : Out :=
  s.word c t (fun _ => writesReg rd.val) (int1 rd.val ra.val popWord)

/-- ADDI (R101). -/
def execAddi (c : CoreId) (t : Thr) (rd : Reg) (ra : Reg) (imm : BitVec 16) (s : State) : Out :=
  s.word c t (fun _ => writesReg rd.val) (opAddi rd.val ra.val imm)

/-- ANDI (R99). -/
def execAndi (c : CoreId) (t : Thr) (rd : Reg) (ra : Reg) (imm : BitVec 16) (s : State) : Out :=
  s.word c t (fun _ => writesReg rd.val) (int1 rd.val ra.val (fun a => a &&& imm.setWidth 64))

/-- ORI (R99). -/
def execOri (c : CoreId) (t : Thr) (rd : Reg) (ra : Reg) (imm : BitVec 16) (s : State) : Out :=
  s.word c t (fun _ => writesReg rd.val) (int1 rd.val ra.val (fun a => a ||| imm.setWidth 64))

/-- XORI (R99). -/
def execXori (c : CoreId) (t : Thr) (rd : Reg) (ra : Reg) (imm : BitVec 16) (s : State) : Out :=
  s.word c t (fun _ => writesReg rd.val) (int1 rd.val ra.val (fun a => a ^^^ imm.setWidth 64))

/-- SHLI (R99). -/
def execShli (c : CoreId) (t : Thr) (rd : Reg) (ra : Reg) (amt : BitVec 6) (s : State) : Out :=
  s.word c t (fun _ => writesReg rd.val) (int1 rd.val ra.val (fun a => a <<< amt.toNat))

/-- SHRI (R99). -/
def execShri (c : CoreId) (t : Thr) (rd : Reg) (ra : Reg) (amt : BitVec 6) (s : State) : Out :=
  s.word c t (fun _ => writesReg rd.val) (int1 rd.val ra.val (fun a => a >>> amt.toNat))

/-- SRAI (R99). -/
def execSrai (c : CoreId) (t : Thr) (rd : Reg) (ra : Reg) (amt : BitVec 6) (s : State) : Out :=
  s.word c t (fun _ => writesReg rd.val) (int1 rd.val ra.val (fun a => a.sshiftRight amt.toNat))

/-- CLTI (R99). -/
def execClti (c : CoreId) (t : Thr) (rd : Reg) (ra : Reg) (imm : BitVec 16) (s : State) : Out :=
  s.word c t (fun _ => writesReg rd.val) (int1 rd.val ra.val (fun a => boolWord (a.slt (imm.signExtend 64))))

/-- CLTUI (R99). -/
def execCltui (c : CoreId) (t : Thr) (rd : Reg) (ra : Reg) (imm : BitVec 16) (s : State) : Out :=
  s.word c t (fun _ => writesReg rd.val) (int1 rd.val ra.val (fun a => boolWord (a.ult (imm.signExtend 64))))

/-- MOVI (R100). -/
def execMovi (c : CoreId) (t : Thr) (rd : Reg) (imm : BitVec 21) (s : State) : Out :=
  s.word c t (fun _ => writesReg rd.val) (writeReg rd.val fun _ => .ok (tint (imm.signExtend 64)))

/-- MOVK (R100). -/
def execMovk (c : CoreId) (t : Thr) (rd : Reg) (hw : Fin 4) (imm : BitVec 16) (s : State) : Out :=
  s.word c t (fun _ => writesReg rd.val) (opMovk rd.val hw.val imm)

end Sys2Proof.Machine
end

