-- ==== Sys2Proof/Machine/ExecMem.lean ====
section
/-! DEFINITION. Meanings: data-space, I/O, far and instruction-memory accesses (spec 03 R106 to R117). Each issues its word in the thread that has fetched it. -/

namespace Sys2Proof.Machine

/-- LD (R107). -/
def execLd (c : CoreId) (t : Thr) (rd : Reg) (ra : Reg) (disp : BitVec 16) (s : State) : Out :=
  s.word c t (fun _ => writesReg rd.val) (opLoad .word rd.val ra.val disp.toInt)

/-- LD_I (R107). -/
def execLdI (c : CoreId) (t : Thr) (rd : Reg) (ra : Reg) (disp : BitVec 16) (s : State) : Out :=
  s.word c t (fun _ => writesReg rd.val) (opLoad .int rd.val ra.val disp.toInt)

/-- LD_F (R107). -/
def execLdF (c : CoreId) (t : Thr) (rd : Reg) (ra : Reg) (disp : BitVec 16) (s : State) : Out :=
  s.word c t (fun _ => writesReg rd.val) (opLoad .flt rd.val ra.val disp.toInt)

/-- LD_P (R107). -/
def execLdP (c : CoreId) (t : Thr) (rd : Reg) (ra : Reg) (disp : BitVec 15) (s : State) : Out :=
  s.word c t (fun _ => writesReg rd.val) (opLoad .ptr rd.val ra.val disp.toInt)

/-- LD_H (R107). -/
def execLdH (c : CoreId) (t : Thr) (rd : Reg) (ra : Reg) (disp : BitVec 15) (s : State) : Out :=
  s.word c t (fun _ => writesReg rd.val) (opLoad .hnd rd.val ra.val disp.toInt)

/-- LDS (R107). -/
def execLds (c : CoreId) (t : Thr) (rd : Reg) (ra : Reg) (sz : BitVec 2) (sx : Bool) (disp : BitVec 13) (s : State) : Out :=
  s.word c t (fun _ _ => { writes := [rd.val], illegal := sz == 3 }) (opLoad (.part sz.toNat sx) rd.val ra.val disp.toInt)

/-- ST (R108). -/
def execSt (c : CoreId) (t : Thr) (rd : Reg) (ra : Reg) (disp : BitVec 16) (s : State) : Out :=
  s.word c t (fun _ _ => {}) (opStore 3 rd.val ra.val disp.toInt)

/-- STS (R108). -/
def execSts (c : CoreId) (t : Thr) (rd : Reg) (ra : Reg) (sz : BitVec 2) (disp : BitVec 13) (s : State) : Out :=
  s.word c t (fun _ _ => { illegal := sz == 3 }) (opStore sz.toNat rd.val ra.val disp.toInt)

/-- BMOV (R110). -/
def execBmov (c : CoreId) (t : Thr) (rd : Reg) (ra : Reg) (rb : Reg) (s : State) : Out :=
  s.word c t (fun _ _ => { writes := [rd.val, ra.val, rb.val] }) (opBmov rd.val ra.val rb.val)

/-- BMOV_BLOCK (R110). -/
def execBmovBlock (c : CoreId) (t : Thr) (s : State) : Out :=
  .next (s.onCore c.val fun e k => k.settleAfter e (bmovBlock e k t.val))

/-- IN (R116). -/
def execIn (c : CoreId) (t : Thr) (rd : Reg) (ra : Reg) (imm : BitVec 16) (s : State) : Out :=
  s.word c t (fun _ => writesReg rd.val) (opIn rd.val ra.val imm.toInt)

/-- OUT (R116). -/
def execOut (c : CoreId) (t : Thr) (rd : Reg) (ra : Reg) (imm : BitVec 16) (s : State) : Out :=
  s.word c t (fun _ _ => {}) (opOut rd.val ra.val imm.toInt)

/-- LD_S (R113). -/
def execLdS (c : CoreId) (t : Thr) (rd : Reg) (ra : Reg) (sz : BitVec 2) (ty : BitVec 2) (disp : BitVec 12) (s : State) : Out :=
  s.word c t (fun _ _ => { writes := [rd.val], illegal := farIllegal false sz.toNat ty.toNat }) (opFar false rd.val ra.val sz.toNat ty.toNat disp.toInt none)

/-- ST_S (R115). -/
def execStS (c : CoreId) (t : Thr) (rd : Reg) (ra : Reg) (sz : BitVec 2) (ty : BitVec 2) (disp : BitVec 12) (s : State) : Out :=
  s.word c t (fun _ _ => { illegal := farIllegal true sz.toNat ty.toNat }) (opFar true rd.val ra.val sz.toNat ty.toNat disp.toInt none)

/-- IMLD (R117). -/
def execImld (c : CoreId) (t : Thr) (rd : Reg) (ra : Reg) (s : State) : Out :=
  s.word c t (fun _ _ => { writes := [rd.val], priv := true }) (opImld rd.val ra.val)

/-- IMST (R117). -/
def execImst (c : CoreId) (t : Thr) (ra : Reg) (rb : Reg) (s : State) : Out :=
  s.word c t (fun _ _ => { priv := true }) (opImst ra.val rb.val)

end Sys2Proof.Machine
end

