-- ==== Sys2Proof/Machine/ExecMxe.lean ====
section
/-! DEFINITION. Meanings: the MXE instructions (spec 07 Table 7-2). Each issues its word in the thread that has fetched it. -/

namespace Sys2Proof.Machine

/-- TMMA (R244). -/
def execTmma (c : CoreId) (t : Thr) (ad : Fin 4) (ta : Fin 8) (tb : Fin 8) (m1 : Fin 32) (n1 : Fin 32) (k1 : Fin 32) (z : Bool) (kh : Bool) (u : Bool) (s : State) : Out :=
  s.word c t (fun e _ => { illegal := mxeIllegal e.vcore (encTmma ad.val ta.val tb.val m1.val n1.val k1.val z kh u) }) (opMxe (encTmma ad.val ta.val tb.val m1.val n1.val k1.val z kh u))

/-- TLOAD (R248). -/
def execTload (c : CoreId) (t : Thr) (dst : Fin 16) (ra : Reg) (rb : Reg) (mode : Fin 4) (r1 : Fin 32) (ty : Fin 8) (cb : Fin 4) (s : State) : Out :=
  s.word c t (fun e _ => { illegal := mxeIllegal e.vcore (encTload dst.val ra.val rb.val mode.val r1.val ty.val cb.val) }) (opMxe (encTload dst.val ra.val rb.val mode.val r1.val ty.val cb.val))

/-- TSTORE (R250). -/
def execTstore (c : CoreId) (t : Thr) (src : Fin 16) (ra : Reg) (rb : Reg) (fmt : Fin 8) (r1 : Fin 32) (sr : Bool) (ovn : Bool) (s : State) : Out :=
  s.word c t (fun e _ => { illegal := mxeIllegal e.vcore (encTstore src.val ra.val rb.val fmt.val r1.val sr ovn) }) (opMxe (encTstore src.val ra.val rb.val fmt.val r1.val sr ovn))

/-- TMOV (R252). -/
def execTmov (c : CoreId) (t : Thr) (dst : Fin 16) (src : Fin 16) (cv : Fin 8) (sr : Bool) (ovn : Bool) (h : Bool) (s : State) : Out :=
  s.word c t (fun e _ => { illegal := mxeIllegal e.vcore (encTmov dst.val src.val cv.val sr ovn h) }) (opMxe (encTmov dst.val src.val cv.val sr ovn h))

/-- TMOVV (R253). -/
def execTmovv (c : CoreId) (t : Thr) (tile : Fin 16) (v : Fin 32) (row : Fin 32) (dir : Bool) (s : State) : Out :=
  s.word c t (fun e _ => { illegal := mxeIllegal e.vcore (encTmovv tile.val v.val row.val dir) }) (opMxe (encTmovv tile.val v.val row.val dir))

/-- TINIT (R255). -/
def execTinit (c : CoreId) (t : Thr) (tile : Fin 16) (r1 : Fin 32) (c1 : Fin 64) (ty : Fin 8) (s : State) : Out :=
  s.word c t (fun e _ => { illegal := mxeIllegal e.vcore (encTinit tile.val r1.val c1.val ty.val) }) (opMxe (encTinit tile.val r1.val c1.val ty.val))

/-- TREL (R256). -/
def execTrel (c : CoreId) (t : Thr) (tile : Fin 8) (s : State) : Out :=
  s.word c t (fun e _ => { illegal := mxeIllegal e.vcore (encTrel tile.val) }) (opMxe (encTrel tile.val))

/-- AREL (R256). -/
def execArel (c : CoreId) (t : Thr) (tile : Fin 4) (s : State) : Out :=
  s.word c t (fun e _ => { illegal := mxeIllegal e.vcore (encTrel (8 + tile.val)) }) (opMxe (encTrel (8 + tile.val)))

end Sys2Proof.Machine
end

