-- ==== Sys2Proof/Machine/ExecPtr.lean ====
section
/-! DEFINITION. Meanings: the move, pointer and creation groups (spec 03 R123, Table 3-15). Each issues its word in the thread that has fetched it. -/

namespace Sys2Proof.Machine

/-- MOV (R123). -/
def execMov (c : CoreId) (t : Thr) (rd : Reg) (ra : Reg) (s : State) : Out :=
  s.word c t (fun _ => writesReg rd.val) (opMov rd.val ra.val)

/-- TAGOF (R123). -/
def execTagof (c : CoreId) (t : Thr) (rd : Reg) (ra : Reg) (s : State) : Out :=
  s.word c t (fun _ => writesReg rd.val) (opTagof rd.val ra.val)

/-- ASRAW (R123). -/
def execAsraw (c : CoreId) (t : Thr) (rd : Reg) (ra : Reg) (s : State) : Out :=
  s.word c t (fun _ => writesReg rd.val) (opAsraw rd.val ra.val)

/-- ASINT (R123). -/
def execAsint (c : CoreId) (t : Thr) (rd : Reg) (ra : Reg) (s : State) : Out :=
  s.word c t (fun _ => writesReg rd.val) (opAs rd.val ra.val .int)

/-- ASFLT (R123). -/
def execAsflt (c : CoreId) (t : Thr) (rd : Reg) (ra : Reg) (s : State) : Out :=
  s.word c t (fun _ => writesReg rd.val) (opAs rd.val ra.val .flt)

/-- PBASE (R123). -/
def execPbase (c : CoreId) (t : Thr) (rd : Reg) (ra : Reg) (s : State) : Out :=
  s.word c t (fun _ => writesReg rd.val) (opPfield rd.val ra.val (fun p => (ptrBase p : Int)))

/-- PLEN (R123). -/
def execPlen (c : CoreId) (t : Thr) (rd : Reg) (ra : Reg) (s : State) : Out :=
  s.word c t (fun _ => writesReg rd.val) (opPfield rd.val ra.val (fun p => (ptrLen p : Int)))

/-- POFF (R123). -/
def execPoff (c : CoreId) (t : Thr) (rd : Reg) (ra : Reg) (s : State) : Out :=
  s.word c t (fun _ => writesReg rd.val) (opPfield rd.val ra.val ptrOff)

/-- PPERM (R123). -/
def execPperm (c : CoreId) (t : Thr) (rd : Reg) (ra : Reg) (s : State) : Out :=
  s.word c t (fun _ => writesReg rd.val) (opPfield rd.val ra.val (fun p => ((b2n (ptrR p) * 2 + b2n (ptrW p) : Nat) : Int)))

/-- PSUB (R123). -/
def execPsub (c : CoreId) (t : Thr) (rd : Reg) (ra : Reg) (rb : Reg) (s : State) : Out :=
  s.word c t (fun _ => writesReg rd.val) (opPsub rd.val ra.val rb.val)

/-- PRDONLY (R123). -/
def execPrdonly (c : CoreId) (t : Thr) (rd : Reg) (ra : Reg) (s : State) : Out :=
  s.word c t (fun _ => writesReg rd.val) (opPrdonly rd.val ra.val)

/-- MSGPTR_0 (R123). -/
def execMsgptr0 (c : CoreId) (t : Thr) (rd : Reg) (ra : Reg) (s : State) : Out :=
  s.word c t (fun _ => writesReg rd.val) (opMsgptr rd.val ra.val false)

/-- MSGPTR_1 (R123). -/
def execMsgptr1 (c : CoreId) (t : Thr) (rd : Reg) (ra : Reg) (s : State) : Out :=
  s.word c t (fun _ => writesReg rd.val) (opMsgptr rd.val ra.val true)

/-- SCHIP (R123). -/
def execSchip (c : CoreId) (t : Thr) (rd : Reg) (ra : Reg) (s : State) : Out :=
  s.word c t (fun _ => writesReg rd.val) (opSfield rd.val ra.val saChip)

/-- SKIND (R123). -/
def execSkind (c : CoreId) (t : Thr) (rd : Reg) (ra : Reg) (s : State) : Out :=
  s.word c t (fun _ => writesReg rd.val) (opSfield rd.val ra.val saKind)

/-- MKPTR (R86). -/
def execMkptr (c : CoreId) (t : Thr) (rd : Reg) (ra : Reg) (rb : Reg) (perm : BitVec 2) (s : State) : Out :=
  s.word c t (fun _ _ => { writes := [rd.val], priv := true }) (opMkptr rd.val ra.val rb.val (perm.getLsbD 1) (perm.getLsbD 0))

/-- MKSPTR (R86). -/
def execMksptr (c : CoreId) (t : Thr) (rd : Reg) (ra : Reg) (s : State) : Out :=
  s.word c t (fun _ _ => { writes := [rd.val], priv := true }) (opMksptr rd.val ra.val)

/-- MKHND (R86). -/
def execMkhnd (c : CoreId) (t : Thr) (rd : Reg) (ra : Reg) (s : State) : Out :=
  s.word c t (fun _ _ => { writes := [rd.val], priv := true }) (opMkhnd rd.val ra.val)

/-- MKCODE (R86). -/
def execMkcode (c : CoreId) (t : Thr) (rd : Reg) (ra : Reg) (s : State) : Out :=
  s.word c t (fun _ _ => { writes := [rd.val], priv := true }) (opMkcode rd.val ra.val)

end Sys2Proof.Machine
end

