-- ==== Sys2Proof/Machine/ExecQueue.lean ====
section
/-! DEFINITION. Meanings: counters, fences, pacing, channels and DMA issue (spec 03 R124 to R126; 10; 11; 09). Each issues its word in the thread that has fetched it. -/

namespace Sys2Proof.Machine

/-- SCINC (R326). -/
def execScinc (c : CoreId) (t : Thr) (q : BitVec 3) (rb : Reg) (n : BitVec 7) (s : State) : Out :=
  s.word c t (fun e => ctrInfo e.vcore (qWord 0 q.toNat 0 0 rb.val n.toNat)) (opCtr (qWord 0 q.toNat 0 0 rb.val n.toNat))

/-- SCINC_REL (R328). -/
def execScincRel (c : CoreId) (t : Thr) (q : BitVec 3) (sc : BitVec 2) (rb : Reg) (n : BitVec 7) (s : State) : Out :=
  s.word c t (fun e => ctrInfo e.vcore (qWord 1 q.toNat sc.toNat 0 rb.val n.toNat)) (opCtr (qWord 1 q.toNat sc.toNat 0 rb.val n.toNat))

/-- SCINC_R (R329). -/
def execScincR (c : CoreId) (t : Thr) (q : BitVec 3) (ra : Reg) (rb : Reg) (s : State) : Out :=
  s.word c t (fun e => ctrInfo e.vcore (qWord 2 q.toNat 0 ra.val rb.val 0)) (opCtr (qWord 2 q.toNat 0 ra.val rb.val 0))

/-- SCINC_R_REL (R328). -/
def execScincRRel (c : CoreId) (t : Thr) (q : BitVec 3) (sc : BitVec 2) (ra : Reg) (rb : Reg) (s : State) : Out :=
  s.word c t (fun e => ctrInfo e.vcore (qWord 3 q.toNat sc.toNat ra.val rb.val 0)) (opCtr (qWord 3 q.toNat sc.toNat ra.val rb.val 0))

/-- WAIT_GE (R331). -/
def execWaitGe (c : CoreId) (t : Thr) (q : BitVec 3) (sc : BitVec 2) (rb : Reg) (n : BitVec 7) (s : State) : Out :=
  s.word c t (fun e => ctrInfo e.vcore (qWord 4 q.toNat sc.toNat 0 rb.val n.toNat)) (opCtr (qWord 4 q.toNat sc.toNat 0 rb.val n.toNat))

/-- WAIT_BG (R331). -/
def execWaitBg (c : CoreId) (t : Thr) (q : BitVec 3) (sc : BitVec 2) (rb : Reg) (n : BitVec 7) (s : State) : Out :=
  s.word c t (fun e => ctrInfo e.vcore (qWord 5 q.toNat sc.toNat 0 rb.val n.toNat)) (opCtr (qWord 5 q.toNat sc.toNat 0 rb.val n.toNat))

/-- REL (R421). -/
def execRel (c : CoreId) (t : Thr) (q : BitVec 3) (sc : BitVec 2) (s : State) : Out :=
  s.word c t (fun e => ctrInfo e.vcore (qWord 6 q.toNat sc.toNat 0 0 0)) (opCtr (qWord 6 q.toNat sc.toNat 0 0 0))

/-- ACQ (R423): a thread performs its far loads one at a time (R417), so no read of it is outstanding when it issues. -/
def execAcq (c : CoreId) (t : Thr) (sc : BitVec 2) (s : State) : Out :=
  s.word c t (fun e => ctrInfo e.vcore (qWord 7 0 sc.toNat 0 0 0)) (opCtr (qWord 7 0 sc.toNat 0 0 0))

/-- BARR (R338). -/
def execBarr (c : CoreId) (t : Thr) (q : BitVec 3) (sc : BitVec 2) (n : BitVec 7) (s : State) : Out :=
  s.word c t (fun e => ctrInfo e.vcore (qWord 8 q.toNat sc.toNat 0 0 n.toNat)) (opCtr (qWord 8 q.toNat sc.toNat 0 0 n.toNat))

/-- PACE (R526). -/
def execPace (c : CoreId) (t : Thr) (s : State) : Out :=
  s.word c t (fun e => ctrInfo e.vcore (qWord 9 0 0 0 0 0)) (opCtr (qWord 9 0 0 0 0 0))

/-- SEND (R358). -/
def execSend (c : CoreId) (t : Thr) (ra : Reg) (rb : Reg) (rc : Reg) (s : State) : Out :=
  s.word c t (fun _ _ => {}) (opSend ra.val rb.val rc.val false)

/-- DONE (R366). -/
def execDone (c : CoreId) (t : Thr) (s : State) : Out :=
  s.word c t (fun _ _ => {}) opDone

/-- OPEN (R354). -/
def execOpen (c : CoreId) (t : Thr) (ra : Reg) (s : State) : Out :=
  s.word c t (fun _ _ => {}) (opOpen ra.val)

/-- CLOSE (R368). -/
def execClose (c : CoreId) (t : Thr) (ra : Reg) (s : State) : Out :=
  s.word c t (fun _ _ => {}) (opClose ra.val)

/-- DMAGO (R303). -/
def execDmago (c : CoreId) (t : Thr) (ra : Reg) (rb : Reg) (s : State) : Out :=
  s.word c t (fun _ _ => {}) (opDmago ra.val rb.val)

/-- DMAABORT (R315). -/
def execDmaabort (c : CoreId) (t : Thr) (ra : Reg) (s : State) : Out :=
  s.word c t (fun _ _ => {}) (opDmaabort ra.val)

end Sys2Proof.Machine
end

