-- ==== Sys2Proof/Machine/ExecVxe.lean ====
section
/-! DEFINITION. Meanings: the VXE instructions (spec 08 Tables 8-3 to 8-9). Each issues its word in the thread that has fetched it. -/

namespace Sys2Proof.Machine

/-- VADD (R275). -/
def execVadd (c : CoreId) (t : Thr) (vd : Fin 32) (va : Fin 32) (vb : Fin 32) (rm : Fin 8) (s : State) : Out :=
  s.word c t (fun _ _ => { illegal := vxeIllegal (s.coreAt c.val).vxe.rm.toNat (encV38 vd.val va.val vb.val rm.val 0) }) (opVxe (encV38 vd.val va.val vb.val rm.val 0))

/-- VSUB (R275). -/
def execVsub (c : CoreId) (t : Thr) (vd : Fin 32) (va : Fin 32) (vb : Fin 32) (rm : Fin 8) (s : State) : Out :=
  s.word c t (fun _ _ => { illegal := vxeIllegal (s.coreAt c.val).vxe.rm.toNat (encV38 vd.val va.val vb.val rm.val 1) }) (opVxe (encV38 vd.val va.val vb.val rm.val 1))

/-- VMUL (R275). -/
def execVmul (c : CoreId) (t : Thr) (vd : Fin 32) (va : Fin 32) (vb : Fin 32) (rm : Fin 8) (s : State) : Out :=
  s.word c t (fun _ _ => { illegal := vxeIllegal (s.coreAt c.val).vxe.rm.toNat (encV38 vd.val va.val vb.val rm.val 2) }) (opVxe (encV38 vd.val va.val vb.val rm.val 2))

/-- VDIV (R275). -/
def execVdiv (c : CoreId) (t : Thr) (vd : Fin 32) (va : Fin 32) (vb : Fin 32) (rm : Fin 8) (s : State) : Out :=
  s.word c t (fun _ _ => { illegal := vxeIllegal (s.coreAt c.val).vxe.rm.toNat (encV38 vd.val va.val vb.val rm.val 3) }) (opVxe (encV38 vd.val va.val vb.val rm.val 3))

/-- VSQRT (R275). -/
def execVsqrt (c : CoreId) (t : Thr) (vd : Fin 32) (va : Fin 32) (rm : Fin 8) (s : State) : Out :=
  s.word c t (fun _ _ => { illegal := vxeIllegal (s.coreAt c.val).vxe.rm.toNat (encV38 vd.val va.val 0 rm.val 4) }) (opVxe (encV38 vd.val va.val 0 rm.val 4))

/-- VMIN (R275). -/
def execVmin (c : CoreId) (t : Thr) (vd : Fin 32) (va : Fin 32) (vb : Fin 32) (s : State) : Out :=
  s.word c t (fun _ _ => { illegal := vxeIllegal (s.coreAt c.val).vxe.rm.toNat (encV38 vd.val va.val vb.val 0 5) }) (opVxe (encV38 vd.val va.val vb.val 0 5))

/-- VMAX (R275). -/
def execVmax (c : CoreId) (t : Thr) (vd : Fin 32) (va : Fin 32) (vb : Fin 32) (s : State) : Out :=
  s.word c t (fun _ _ => { illegal := vxeIllegal (s.coreAt c.val).vxe.rm.toNat (encV38 vd.val va.val vb.val 0 6) }) (opVxe (encV38 vd.val va.val vb.val 0 6))

/-- VMINN (R275). -/
def execVminn (c : CoreId) (t : Thr) (vd : Fin 32) (va : Fin 32) (vb : Fin 32) (s : State) : Out :=
  s.word c t (fun _ _ => { illegal := vxeIllegal (s.coreAt c.val).vxe.rm.toNat (encV38 vd.val va.val vb.val 0 7) }) (opVxe (encV38 vd.val va.val vb.val 0 7))

/-- VMAXN (R275). -/
def execVmaxn (c : CoreId) (t : Thr) (vd : Fin 32) (va : Fin 32) (vb : Fin 32) (s : State) : Out :=
  s.word c t (fun _ _ => { illegal := vxeIllegal (s.coreAt c.val).vxe.rm.toNat (encV38 vd.val va.val vb.val 0 8) }) (opVxe (encV38 vd.val va.val vb.val 0 8))

/-- VCEQ (R275). -/
def execVceq (c : CoreId) (t : Thr) (vd : Fin 32) (va : Fin 32) (vb : Fin 32) (s : State) : Out :=
  s.word c t (fun _ _ => { illegal := vxeIllegal (s.coreAt c.val).vxe.rm.toNat (encV38 vd.val va.val vb.val 0 9) }) (opVxe (encV38 vd.val va.val vb.val 0 9))

/-- VCLT (R275). -/
def execVclt (c : CoreId) (t : Thr) (vd : Fin 32) (va : Fin 32) (vb : Fin 32) (s : State) : Out :=
  s.word c t (fun _ _ => { illegal := vxeIllegal (s.coreAt c.val).vxe.rm.toNat (encV38 vd.val va.val vb.val 0 10) }) (opVxe (encV38 vd.val va.val vb.val 0 10))

/-- VCLE (R275). -/
def execVcle (c : CoreId) (t : Thr) (vd : Fin 32) (va : Fin 32) (vb : Fin 32) (s : State) : Out :=
  s.word c t (fun _ _ => { illegal := vxeIllegal (s.coreAt c.val).vxe.rm.toNat (encV38 vd.val va.val vb.val 0 11) }) (opVxe (encV38 vd.val va.val vb.val 0 11))

/-- VNEG (R275). -/
def execVneg (c : CoreId) (t : Thr) (vd : Fin 32) (va : Fin 32) (s : State) : Out :=
  s.word c t (fun _ _ => { illegal := vxeIllegal (s.coreAt c.val).vxe.rm.toNat (encV38 vd.val va.val 0 0 12) }) (opVxe (encV38 vd.val va.val 0 0 12))

/-- VABS (R275). -/
def execVabs (c : CoreId) (t : Thr) (vd : Fin 32) (va : Fin 32) (s : State) : Out :=
  s.word c t (fun _ _ => { illegal := vxeIllegal (s.coreAt c.val).vxe.rm.toNat (encV38 vd.val va.val 0 0 13) }) (opVxe (encV38 vd.val va.val 0 0 13))

/-- VCPYS (R275). -/
def execVcpys (c : CoreId) (t : Thr) (vd : Fin 32) (va : Fin 32) (vb : Fin 32) (s : State) : Out :=
  s.word c t (fun _ _ => { illegal := vxeIllegal (s.coreAt c.val).vxe.rm.toNat (encV38 vd.val va.val vb.val 0 14) }) (opVxe (encV38 vd.val va.val vb.val 0 14))

/-- VEXP2 (R276). -/
def execVexp2 (c : CoreId) (t : Thr) (vd : Fin 32) (va : Fin 32) (s : State) : Out :=
  s.word c t (fun _ _ => { illegal := vxeIllegal (s.coreAt c.val).vxe.rm.toNat (encV38 vd.val va.val 0 0 16) }) (opVxe (encV38 vd.val va.val 0 0 16))

/-- VLOG2 (R276). -/
def execVlog2 (c : CoreId) (t : Thr) (vd : Fin 32) (va : Fin 32) (s : State) : Out :=
  s.word c t (fun _ _ => { illegal := vxeIllegal (s.coreAt c.val).vxe.rm.toNat (encV38 vd.val va.val 0 0 17) }) (opVxe (encV38 vd.val va.val 0 0 17))

/-- VRCP (R276). -/
def execVrcp (c : CoreId) (t : Thr) (vd : Fin 32) (va : Fin 32) (s : State) : Out :=
  s.word c t (fun _ _ => { illegal := vxeIllegal (s.coreAt c.val).vxe.rm.toNat (encV38 vd.val va.val 0 0 18) }) (opVxe (encV38 vd.val va.val 0 0 18))

/-- VRSQ (R276). -/
def execVrsq (c : CoreId) (t : Thr) (vd : Fin 32) (va : Fin 32) (s : State) : Out :=
  s.word c t (fun _ _ => { illegal := vxeIllegal (s.coreAt c.val).vxe.rm.toNat (encV38 vd.val va.val 0 0 19) }) (opVxe (encV38 vd.val va.val 0 0 19))

/-- VFMA (R275). -/
def execVfma (c : CoreId) (t : Thr) (vd : Fin 32) (va : Fin 32) (vb : Fin 32) (vc : Fin 32) (rm : Fin 8) (s : State) : Out :=
  s.word c t (fun _ _ => { illegal := vxeIllegal (s.coreAt c.val).vxe.rm.toNat (encV39 vd.val va.val vb.val vc.val rm.val 0) }) (opVxe (encV39 vd.val va.val vb.val vc.val rm.val 0))

/-- VFMS (R275). -/
def execVfms (c : CoreId) (t : Thr) (vd : Fin 32) (va : Fin 32) (vb : Fin 32) (vc : Fin 32) (rm : Fin 8) (s : State) : Out :=
  s.word c t (fun _ _ => { illegal := vxeIllegal (s.coreAt c.val).vxe.rm.toNat (encV39 vd.val va.val vb.val vc.val rm.val 1) }) (opVxe (encV39 vd.val va.val vb.val vc.val rm.val 1))

/-- VFNMA (R275). -/
def execVfnma (c : CoreId) (t : Thr) (vd : Fin 32) (va : Fin 32) (vb : Fin 32) (vc : Fin 32) (rm : Fin 8) (s : State) : Out :=
  s.word c t (fun _ _ => { illegal := vxeIllegal (s.coreAt c.val).vxe.rm.toNat (encV39 vd.val va.val vb.val vc.val rm.val 2) }) (opVxe (encV39 vd.val va.val vb.val vc.val rm.val 2))

/-- VFNMS (R275). -/
def execVfnms (c : CoreId) (t : Thr) (vd : Fin 32) (va : Fin 32) (vb : Fin 32) (vc : Fin 32) (rm : Fin 8) (s : State) : Out :=
  s.word c t (fun _ _ => { illegal := vxeIllegal (s.coreAt c.val).vxe.rm.toNat (encV39 vd.val va.val vb.val vc.val rm.val 3) }) (opVxe (encV39 vd.val va.val vb.val vc.val rm.val 3))

/-- VIADD (R277). -/
def execViadd (c : CoreId) (t : Thr) (vd : Fin 32) (va : Fin 32) (vb : Fin 32) (w : Fin 4) (s : State) : Out :=
  s.word c t (fun _ _ => { illegal := vxeIllegal (s.coreAt c.val).vxe.rm.toNat (encV3A vd.val va.val vb.val w.val 0) }) (opVxe (encV3A vd.val va.val vb.val w.val 0))

/-- VISUB (R277). -/
def execVisub (c : CoreId) (t : Thr) (vd : Fin 32) (va : Fin 32) (vb : Fin 32) (w : Fin 4) (s : State) : Out :=
  s.word c t (fun _ _ => { illegal := vxeIllegal (s.coreAt c.val).vxe.rm.toNat (encV3A vd.val va.val vb.val w.val 1) }) (opVxe (encV3A vd.val va.val vb.val w.val 1))

/-- VIADDS (R277). -/
def execViadds (c : CoreId) (t : Thr) (vd : Fin 32) (va : Fin 32) (vb : Fin 32) (w : Fin 4) (s : State) : Out :=
  s.word c t (fun _ _ => { illegal := vxeIllegal (s.coreAt c.val).vxe.rm.toNat (encV3A vd.val va.val vb.val w.val 2) }) (opVxe (encV3A vd.val va.val vb.val w.val 2))

/-- VISUBS (R277). -/
def execVisubs (c : CoreId) (t : Thr) (vd : Fin 32) (va : Fin 32) (vb : Fin 32) (w : Fin 4) (s : State) : Out :=
  s.word c t (fun _ _ => { illegal := vxeIllegal (s.coreAt c.val).vxe.rm.toNat (encV3A vd.val va.val vb.val w.val 3) }) (opVxe (encV3A vd.val va.val vb.val w.val 3))

/-- VIMUL (R277). -/
def execVimul (c : CoreId) (t : Thr) (vd : Fin 32) (va : Fin 32) (vb : Fin 32) (w : Fin 4) (s : State) : Out :=
  s.word c t (fun _ _ => { illegal := vxeIllegal (s.coreAt c.val).vxe.rm.toNat (encV3A vd.val va.val vb.val w.val 4) }) (opVxe (encV3A vd.val va.val vb.val w.val 4))

/-- VIMULH (R277). -/
def execVimulh (c : CoreId) (t : Thr) (vd : Fin 32) (va : Fin 32) (vb : Fin 32) (w : Fin 4) (s : State) : Out :=
  s.word c t (fun _ _ => { illegal := vxeIllegal (s.coreAt c.val).vxe.rm.toNat (encV3A vd.val va.val vb.val w.val 5) }) (opVxe (encV3A vd.val va.val vb.val w.val 5))

/-- VIMIN (R277). -/
def execVimin (c : CoreId) (t : Thr) (vd : Fin 32) (va : Fin 32) (vb : Fin 32) (w : Fin 4) (s : State) : Out :=
  s.word c t (fun _ _ => { illegal := vxeIllegal (s.coreAt c.val).vxe.rm.toNat (encV3A vd.val va.val vb.val w.val 6) }) (opVxe (encV3A vd.val va.val vb.val w.val 6))

/-- VIMAX (R277). -/
def execVimax (c : CoreId) (t : Thr) (vd : Fin 32) (va : Fin 32) (vb : Fin 32) (w : Fin 4) (s : State) : Out :=
  s.word c t (fun _ _ => { illegal := vxeIllegal (s.coreAt c.val).vxe.rm.toNat (encV3A vd.val va.val vb.val w.val 7) }) (opVxe (encV3A vd.val va.val vb.val w.val 7))

/-- VIMINU (R277). -/
def execViminu (c : CoreId) (t : Thr) (vd : Fin 32) (va : Fin 32) (vb : Fin 32) (w : Fin 4) (s : State) : Out :=
  s.word c t (fun _ _ => { illegal := vxeIllegal (s.coreAt c.val).vxe.rm.toNat (encV3A vd.val va.val vb.val w.val 8) }) (opVxe (encV3A vd.val va.val vb.val w.val 8))

/-- VIMAXU (R277). -/
def execVimaxu (c : CoreId) (t : Thr) (vd : Fin 32) (va : Fin 32) (vb : Fin 32) (w : Fin 4) (s : State) : Out :=
  s.word c t (fun _ _ => { illegal := vxeIllegal (s.coreAt c.val).vxe.rm.toNat (encV3A vd.val va.val vb.val w.val 9) }) (opVxe (encV3A vd.val va.val vb.val w.val 9))

/-- VAND (R277). -/
def execVand (c : CoreId) (t : Thr) (vd : Fin 32) (va : Fin 32) (vb : Fin 32) (w : Fin 4) (s : State) : Out :=
  s.word c t (fun _ _ => { illegal := vxeIllegal (s.coreAt c.val).vxe.rm.toNat (encV3A vd.val va.val vb.val w.val 10) }) (opVxe (encV3A vd.val va.val vb.val w.val 10))

/-- VOR (R277). -/
def execVor (c : CoreId) (t : Thr) (vd : Fin 32) (va : Fin 32) (vb : Fin 32) (w : Fin 4) (s : State) : Out :=
  s.word c t (fun _ _ => { illegal := vxeIllegal (s.coreAt c.val).vxe.rm.toNat (encV3A vd.val va.val vb.val w.val 11) }) (opVxe (encV3A vd.val va.val vb.val w.val 11))

/-- VXOR (R277). -/
def execVxor (c : CoreId) (t : Thr) (vd : Fin 32) (va : Fin 32) (vb : Fin 32) (w : Fin 4) (s : State) : Out :=
  s.word c t (fun _ _ => { illegal := vxeIllegal (s.coreAt c.val).vxe.rm.toNat (encV3A vd.val va.val vb.val w.val 12) }) (opVxe (encV3A vd.val va.val vb.val w.val 12))

/-- VSHL (R277). -/
def execVshl (c : CoreId) (t : Thr) (vd : Fin 32) (va : Fin 32) (vb : Fin 32) (w : Fin 4) (s : State) : Out :=
  s.word c t (fun _ _ => { illegal := vxeIllegal (s.coreAt c.val).vxe.rm.toNat (encV3A vd.val va.val vb.val w.val 13) }) (opVxe (encV3A vd.val va.val vb.val w.val 13))

/-- VSHR (R277). -/
def execVshr (c : CoreId) (t : Thr) (vd : Fin 32) (va : Fin 32) (vb : Fin 32) (w : Fin 4) (s : State) : Out :=
  s.word c t (fun _ _ => { illegal := vxeIllegal (s.coreAt c.val).vxe.rm.toNat (encV3A vd.val va.val vb.val w.val 14) }) (opVxe (encV3A vd.val va.val vb.val w.val 14))

/-- VSRA (R277). -/
def execVsra (c : CoreId) (t : Thr) (vd : Fin 32) (va : Fin 32) (vb : Fin 32) (w : Fin 4) (s : State) : Out :=
  s.word c t (fun _ _ => { illegal := vxeIllegal (s.coreAt c.val).vxe.rm.toNat (encV3A vd.val va.val vb.val w.val 15) }) (opVxe (encV3A vd.val va.val vb.val w.val 15))

/-- VICEQ (R277). -/
def execViceq (c : CoreId) (t : Thr) (vd : Fin 32) (va : Fin 32) (vb : Fin 32) (w : Fin 4) (s : State) : Out :=
  s.word c t (fun _ _ => { illegal := vxeIllegal (s.coreAt c.val).vxe.rm.toNat (encV3A vd.val va.val vb.val w.val 16) }) (opVxe (encV3A vd.val va.val vb.val w.val 16))

/-- VICLT (R277). -/
def execViclt (c : CoreId) (t : Thr) (vd : Fin 32) (va : Fin 32) (vb : Fin 32) (w : Fin 4) (s : State) : Out :=
  s.word c t (fun _ _ => { illegal := vxeIllegal (s.coreAt c.val).vxe.rm.toNat (encV3A vd.val va.val vb.val w.val 17) }) (opVxe (encV3A vd.val va.val vb.val w.val 17))

/-- VICLTU (R277). -/
def execVicltu (c : CoreId) (t : Thr) (vd : Fin 32) (va : Fin 32) (vb : Fin 32) (w : Fin 4) (s : State) : Out :=
  s.word c t (fun _ _ => { illegal := vxeIllegal (s.coreAt c.val).vxe.rm.toNat (encV3A vd.val va.val vb.val w.val 18) }) (opVxe (encV3A vd.val va.val vb.val w.val 18))

/-- VBSL (R277). -/
def execVbsl (c : CoreId) (t : Thr) (vd : Fin 32) (va : Fin 32) (vb : Fin 32) (w : Fin 4) (s : State) : Out :=
  s.word c t (fun _ _ => { illegal := vxeIllegal (s.coreAt c.val).vxe.rm.toNat (encV3A vd.val va.val vb.val w.val 19) }) (opVxe (encV3A vd.val va.val vb.val w.val 19))

/-- VIABS (R277). -/
def execViabs (c : CoreId) (t : Thr) (vd : Fin 32) (va : Fin 32) (w : Fin 4) (s : State) : Out :=
  s.word c t (fun _ _ => { illegal := vxeIllegal (s.coreAt c.val).vxe.rm.toNat (encV3A vd.val va.val 0 w.val 20) }) (opVxe (encV3A vd.val va.val 0 w.val 20))

/-- VCVT_DF16 (R278). -/
def execVcvtDf16 (c : CoreId) (t : Thr) (vd : Fin 32) (va : Fin 32) (part : Fin 4) (sr : Bool) (ovn : Bool) (s : State) : Out :=
  s.word c t (fun _ _ => { illegal := vxeIllegal (s.coreAt c.val).vxe.rm.toNat (encV3B vd.val va.val 0 0 part.val 0 sr ovn) }) (opVxe (encV3B vd.val va.val 0 0 part.val 0 sr ovn))

/-- VCVT_DF8 (R278). -/
def execVcvtDf8 (c : CoreId) (t : Thr) (vd : Fin 32) (va : Fin 32) (part : Fin 4) (sr : Bool) (ovn : Bool) (s : State) : Out :=
  s.word c t (fun _ _ => { illegal := vxeIllegal (s.coreAt c.val).vxe.rm.toNat (encV3B vd.val va.val 0 1 part.val 0 sr ovn) }) (opVxe (encV3B vd.val va.val 0 1 part.val 0 sr ovn))

/-- VCVT_F_DF16 (R278). -/
def execVcvtFDf16 (c : CoreId) (t : Thr) (vd : Fin 32) (va : Fin 32) (part : Fin 4) (s : State) : Out :=
  s.word c t (fun _ _ => { illegal := vxeIllegal (s.coreAt c.val).vxe.rm.toNat (encV3B vd.val va.val 0 2 part.val 0 false false) }) (opVxe (encV3B vd.val va.val 0 2 part.val 0 false false))

/-- VCVT_F_DF8 (R278). -/
def execVcvtFDf8 (c : CoreId) (t : Thr) (vd : Fin 32) (va : Fin 32) (part : Fin 4) (s : State) : Out :=
  s.word c t (fun _ _ => { illegal := vxeIllegal (s.coreAt c.val).vxe.rm.toNat (encV3B vd.val va.val 0 3 part.val 0 false false) }) (opVxe (encV3B vd.val va.val 0 3 part.val 0 false false))

/-- VCVT_I32 (R278). -/
def execVcvtI32 (c : CoreId) (t : Thr) (vd : Fin 32) (va : Fin 32) (rm : Fin 8) (s : State) : Out :=
  s.word c t (fun _ _ => { illegal := vxeIllegal (s.coreAt c.val).vxe.rm.toNat (encV3B vd.val va.val 0 4 0 rm.val false false) }) (opVxe (encV3B vd.val va.val 0 4 0 rm.val false false))

/-- VCVT_F_I32 (R278). -/
def execVcvtFI32 (c : CoreId) (t : Thr) (vd : Fin 32) (va : Fin 32) (rm : Fin 8) (s : State) : Out :=
  s.word c t (fun _ _ => { illegal := vxeIllegal (s.coreAt c.val).vxe.rm.toNat (encV3B vd.val va.val 0 5 0 rm.val false false) }) (opVxe (encV3B vd.val va.val 0 5 0 rm.val false false))

/-- VCVT_I32_I16 (R278). -/
def execVcvtI32I16 (c : CoreId) (t : Thr) (vd : Fin 32) (va : Fin 32) (part : Fin 4) (s : State) : Out :=
  s.word c t (fun _ _ => { illegal := vxeIllegal (s.coreAt c.val).vxe.rm.toNat (encV3B vd.val va.val 0 6 part.val 0 false false) }) (opVxe (encV3B vd.val va.val 0 6 part.val 0 false false))

/-- VCVT_I16 (R278). -/
def execVcvtI16 (c : CoreId) (t : Thr) (vd : Fin 32) (va : Fin 32) (part : Fin 4) (s : State) : Out :=
  s.word c t (fun _ _ => { illegal := vxeIllegal (s.coreAt c.val).vxe.rm.toNat (encV3B vd.val va.val 0 7 part.val 0 false false) }) (opVxe (encV3B vd.val va.val 0 7 part.val 0 false false))

/-- VCVT_I32_DI8 (R278). -/
def execVcvtI32Di8 (c : CoreId) (t : Thr) (vd : Fin 32) (va : Fin 32) (part : Fin 4) (s : State) : Out :=
  s.word c t (fun _ _ => { illegal := vxeIllegal (s.coreAt c.val).vxe.rm.toNat (encV3B vd.val va.val 0 8 part.val 0 false false) }) (opVxe (encV3B vd.val va.val 0 8 part.val 0 false false))

/-- VCVT_DI8 (R278). -/
def execVcvtDi8 (c : CoreId) (t : Thr) (vd : Fin 32) (va : Fin 32) (part : Fin 4) (s : State) : Out :=
  s.word c t (fun _ _ => { illegal := vxeIllegal (s.coreAt c.val).vxe.rm.toNat (encV3B vd.val va.val 0 9 part.val 0 false false) }) (opVxe (encV3B vd.val va.val 0 9 part.val 0 false false))

/-- VQNT_32 (R279). -/
def execVqnt32 (c : CoreId) (t : Thr) (vd : Fin 32) (va : Fin 32) (rb : Reg) (s : State) : Out :=
  s.word c t (fun _ _ => { illegal := vxeIllegal (s.coreAt c.val).vxe.rm.toNat (encV3B vd.val va.val rb.val 10 0 0 false false) }) (opVxe (encV3B vd.val va.val rb.val 10 0 0 false false))

/-- VQNT_64 (R279). -/
def execVqnt64 (c : CoreId) (t : Thr) (vd : Fin 32) (va : Fin 32) (rb : Reg) (part : Fin 4) (s : State) : Out :=
  s.word c t (fun _ _ => { illegal := vxeIllegal (s.coreAt c.val).vxe.rm.toNat (encV3B vd.val va.val rb.val 11 part.val 0 false false) }) (opVxe (encV3B vd.val va.val rb.val 11 part.val 0 false false))

/-- VDQ_32 (R278). -/
def execVdq32 (c : CoreId) (t : Thr) (vd : Fin 32) (va : Fin 32) (rb : Reg) (rm : Fin 8) (s : State) : Out :=
  s.word c t (fun _ _ => { illegal := vxeIllegal (s.coreAt c.val).vxe.rm.toNat (encV3B vd.val va.val rb.val 12 0 rm.val false false) }) (opVxe (encV3B vd.val va.val rb.val 12 0 rm.val false false))

/-- VDQ_64 (R278). -/
def execVdq64 (c : CoreId) (t : Thr) (vd : Fin 32) (va : Fin 32) (rb : Reg) (part : Fin 4) (rm : Fin 8) (s : State) : Out :=
  s.word c t (fun _ _ => { illegal := vxeIllegal (s.coreAt c.val).vxe.rm.toNat (encV3B vd.val va.val rb.val 13 part.val rm.val false false) }) (opVxe (encV3B vd.val va.val rb.val 13 part.val rm.val false false))

/-- VGEXP (R280). -/
def execVgexp (c : CoreId) (t : Thr) (vd : Fin 32) (va : Fin 32) (s : State) : Out :=
  s.word c t (fun _ _ => { illegal := vxeIllegal (s.coreAt c.val).vxe.rm.toNat (encV3B vd.val va.val 0 14 0 0 false false) }) (opVxe (encV3B vd.val va.val 0 14 0 0 false false))

/-- VLD (R284). -/
def execVld (c : CoreId) (t : Thr) (vd : Fin 32) (ra : Reg) (s : State) : Out :=
  s.word c t (fun _ _ => { illegal := vxeIllegal (s.coreAt c.val).vxe.rm.toNat (encV3C vd.val ra.val 0 0 0) }) (opVxe (encV3C vd.val ra.val 0 0 0))

/-- VLDS (R284). -/
def execVlds (c : CoreId) (t : Thr) (vd : Fin 32) (ra : Reg) (rb : Reg) (s : State) : Out :=
  s.word c t (fun _ _ => { illegal := vxeIllegal (s.coreAt c.val).vxe.rm.toNat (encV3C vd.val ra.val rb.val 1 0) }) (opVxe (encV3C vd.val ra.val rb.val 1 0))

/-- VST (R284). -/
def execVst (c : CoreId) (t : Thr) (vd : Fin 32) (ra : Reg) (x : Fin 32) (s : State) : Out :=
  s.word c t (fun _ _ => { illegal := vxeIllegal (s.coreAt c.val).vxe.rm.toNat (encV3C vd.val ra.val 0 2 x.val) }) (opVxe (encV3C vd.val ra.val 0 2 x.val))

/-- VRED_ROWS (R285). -/
def execVredRows (c : CoreId) (t : Thr) (vd : Fin 32) (ra : Reg) (rb : Reg) (op : Fin 8) (z : Bool) (s : State) : Out :=
  s.word c t (fun _ _ => { illegal := vxeIllegal (s.coreAt c.val).vxe.rm.toNat (encV3C vd.val ra.val rb.val 3 (op.val * 32 + b2n z * 16)) }) (opVxe (encV3C vd.val ra.val rb.val 3 (op.val * 32 + b2n z * 16)))

/-- VPERM (R282). -/
def execVperm (c : CoreId) (t : Thr) (vd : Fin 32) (va : Fin 32) (vb : Fin 32) (s : State) : Out :=
  s.word c t (fun _ _ => { illegal := vxeIllegal (s.coreAt c.val).vxe.rm.toNat (encV3D vd.val va.val vb.val 0 0) }) (opVxe (encV3D vd.val va.val vb.val 0 0))

/-- VROT (R282). -/
def execVrot (c : CoreId) (t : Thr) (vd : Fin 32) (va : Fin 32) (imm : Fin 64) (s : State) : Out :=
  s.word c t (fun _ _ => { illegal := vxeIllegal (s.coreAt c.val).vxe.rm.toNat (encV3D vd.val va.val 0 1 imm.val) }) (opVxe (encV3D vd.val va.val 0 1 imm.val))

/-- VBCL (R282). -/
def execVbcl (c : CoreId) (t : Thr) (vd : Fin 32) (va : Fin 32) (imm : Fin 64) (s : State) : Out :=
  s.word c t (fun _ _ => { illegal := vxeIllegal (s.coreAt c.val).vxe.rm.toNat (encV3D vd.val va.val 0 2 imm.val) }) (opVxe (encV3D vd.val va.val 0 2 imm.val))

/-- VSPLAT (R281). -/
def execVsplat (c : CoreId) (t : Thr) (vd : Fin 32) (rb : Reg) (imm : Fin 64) (s : State) : Out :=
  s.word c t (fun _ _ => { illegal := vxeIllegal (s.coreAt c.val).vxe.rm.toNat (encV3D vd.val 0 rb.val 3 imm.val) }) (opVxe (encV3D vd.val 0 rb.val 3 imm.val))

/-- VZIPL (R282). -/
def execVzipl (c : CoreId) (t : Thr) (vd : Fin 32) (va : Fin 32) (vb : Fin 32) (s : State) : Out :=
  s.word c t (fun _ _ => { illegal := vxeIllegal (s.coreAt c.val).vxe.rm.toNat (encV3D vd.val va.val vb.val 4 0) }) (opVxe (encV3D vd.val va.val vb.val 4 0))

/-- VZIPH (R282). -/
def execVziph (c : CoreId) (t : Thr) (vd : Fin 32) (va : Fin 32) (vb : Fin 32) (s : State) : Out :=
  s.word c t (fun _ _ => { illegal := vxeIllegal (s.coreAt c.val).vxe.rm.toNat (encV3D vd.val va.val vb.val 5 0) }) (opVxe (encV3D vd.val va.val vb.val 5 0))

/-- VUZPE (R282). -/
def execVuzpe (c : CoreId) (t : Thr) (vd : Fin 32) (va : Fin 32) (vb : Fin 32) (s : State) : Out :=
  s.word c t (fun _ _ => { illegal := vxeIllegal (s.coreAt c.val).vxe.rm.toNat (encV3D vd.val va.val vb.val 6 0) }) (opVxe (encV3D vd.val va.val vb.val 6 0))

/-- VUZPO (R282). -/
def execVuzpo (c : CoreId) (t : Thr) (vd : Fin 32) (va : Fin 32) (vb : Fin 32) (s : State) : Out :=
  s.word c t (fun _ _ => { illegal := vxeIllegal (s.coreAt c.val).vxe.rm.toNat (encV3D vd.val va.val vb.val 7 0) }) (opVxe (encV3D vd.val va.val vb.val 7 0))

/-- VHADD_F (R282). -/
def execVhaddF (c : CoreId) (t : Thr) (vd : Fin 32) (va : Fin 32) (rm : Fin 8) (s : State) : Out :=
  s.word c t (fun _ _ => { illegal := vxeIllegal (s.coreAt c.val).vxe.rm.toNat (encV3D vd.val va.val 0 8 rm.val) }) (opVxe (encV3D vd.val va.val 0 8 rm.val))

/-- VHMAX_F (R282). -/
def execVhmaxF (c : CoreId) (t : Thr) (vd : Fin 32) (va : Fin 32) (s : State) : Out :=
  s.word c t (fun _ _ => { illegal := vxeIllegal (s.coreAt c.val).vxe.rm.toNat (encV3D vd.val va.val 0 9 0) }) (opVxe (encV3D vd.val va.val 0 9 0))

/-- VHMIN_F (R282). -/
def execVhminF (c : CoreId) (t : Thr) (vd : Fin 32) (va : Fin 32) (s : State) : Out :=
  s.word c t (fun _ _ => { illegal := vxeIllegal (s.coreAt c.val).vxe.rm.toNat (encV3D vd.val va.val 0 10 0) }) (opVxe (encV3D vd.val va.val 0 10 0))

/-- VHADD_I32 (R282). -/
def execVhaddI32 (c : CoreId) (t : Thr) (vd : Fin 32) (va : Fin 32) (s : State) : Out :=
  s.word c t (fun _ _ => { illegal := vxeIllegal (s.coreAt c.val).vxe.rm.toNat (encV3D vd.val va.val 0 11 0) }) (opVxe (encV3D vd.val va.val 0 11 0))

/-- VHMAX_I32 (R282). -/
def execVhmaxI32 (c : CoreId) (t : Thr) (vd : Fin 32) (va : Fin 32) (s : State) : Out :=
  s.word c t (fun _ _ => { illegal := vxeIllegal (s.coreAt c.val).vxe.rm.toNat (encV3D vd.val va.val 0 12 0) }) (opVxe (encV3D vd.val va.val 0 12 0))

/-- VHADD_I64 (R282). -/
def execVhaddI64 (c : CoreId) (t : Thr) (vd : Fin 32) (va : Fin 32) (s : State) : Out :=
  s.word c t (fun _ _ => { illegal := vxeIllegal (s.coreAt c.val).vxe.rm.toNat (encV3D vd.val va.val 0 13 0) }) (opVxe (encV3D vd.val va.val 0 13 0))

/-- VRNG (R283). -/
def execVrng (c : CoreId) (t : Thr) (vd : Fin 32) (uni : Bool) (s : State) : Out :=
  s.word c t (fun _ _ => { illegal := vxeIllegal (s.coreAt c.val).vxe.rm.toNat (encV3D vd.val 0 0 14 (b2n uni)) }) (opVxe (encV3D vd.val 0 0 14 (b2n uni)))

end Sys2Proof.Machine
end

