-- ==== Sys2Proof/Machine/Dispatch.lean ====
section
/-! DEFINITION. One arm per command. -/

namespace Sys2Proof.Machine

/-- The effect of a command on everything but the queue. -/
def exec (i : Instr) (s : State) : Host.Outcome State Fault Refusal :=
  match i with
  | .add c t rd ra rb => Sys2Proof.Machine.execAdd c t rd ra rb s
  | .sub c t rd ra rb => Sys2Proof.Machine.execSub c t rd ra rb s
  | .and_ c t rd ra rb => Sys2Proof.Machine.execAnd c t rd ra rb s
  | .or_ c t rd ra rb => Sys2Proof.Machine.execOr c t rd ra rb s
  | .xor c t rd ra rb => Sys2Proof.Machine.execXor c t rd ra rb s
  | .shl c t rd ra rb => Sys2Proof.Machine.execShl c t rd ra rb s
  | .shr c t rd ra rb => Sys2Proof.Machine.execShr c t rd ra rb s
  | .sra c t rd ra rb => Sys2Proof.Machine.execSra c t rd ra rb s
  | .mul c t rd ra rb => Sys2Proof.Machine.execMul c t rd ra rb s
  | .mulh c t rd ra rb => Sys2Proof.Machine.execMulh c t rd ra rb s
  | .mulhu c t rd ra rb => Sys2Proof.Machine.execMulhu c t rd ra rb s
  | .div c t rd ra rb => Sys2Proof.Machine.execDiv c t rd ra rb s
  | .divu c t rd ra rb => Sys2Proof.Machine.execDivu c t rd ra rb s
  | .rem c t rd ra rb => Sys2Proof.Machine.execRem c t rd ra rb s
  | .remu c t rd ra rb => Sys2Proof.Machine.execRemu c t rd ra rb s
  | .min_ c t rd ra rb => Sys2Proof.Machine.execMin c t rd ra rb s
  | .max_ c t rd ra rb => Sys2Proof.Machine.execMax c t rd ra rb s
  | .minu c t rd ra rb => Sys2Proof.Machine.execMinu c t rd ra rb s
  | .maxu c t rd ra rb => Sys2Proof.Machine.execMaxu c t rd ra rb s
  | .ceq c t rd ra rb => Sys2Proof.Machine.execCeq c t rd ra rb s
  | .clt c t rd ra rb => Sys2Proof.Machine.execClt c t rd ra rb s
  | .cltu c t rd ra rb => Sys2Proof.Machine.execCltu c t rd ra rb s
  | .clz c t rd ra => Sys2Proof.Machine.execClz c t rd ra s
  | .ctz c t rd ra => Sys2Proof.Machine.execCtz c t rd ra s
  | .popc c t rd ra => Sys2Proof.Machine.execPopc c t rd ra s
  | .addi c t rd ra imm => Sys2Proof.Machine.execAddi c t rd ra imm s
  | .andi c t rd ra imm => Sys2Proof.Machine.execAndi c t rd ra imm s
  | .ori c t rd ra imm => Sys2Proof.Machine.execOri c t rd ra imm s
  | .xori c t rd ra imm => Sys2Proof.Machine.execXori c t rd ra imm s
  | .shli c t rd ra amt => Sys2Proof.Machine.execShli c t rd ra amt s
  | .shri c t rd ra amt => Sys2Proof.Machine.execShri c t rd ra amt s
  | .srai c t rd ra amt => Sys2Proof.Machine.execSrai c t rd ra amt s
  | .clti c t rd ra imm => Sys2Proof.Machine.execClti c t rd ra imm s
  | .cltui c t rd ra imm => Sys2Proof.Machine.execCltui c t rd ra imm s
  | .movi c t rd imm => Sys2Proof.Machine.execMovi c t rd imm s
  | .movk c t rd hw imm => Sys2Proof.Machine.execMovk c t rd hw imm s
  | .fadd c t rd ra rb rm => Sys2Proof.Machine.execFadd c t rd ra rb rm s
  | .fsub c t rd ra rb rm => Sys2Proof.Machine.execFsub c t rd ra rb rm s
  | .fmul c t rd ra rb rm => Sys2Proof.Machine.execFmul c t rd ra rb rm s
  | .fdiv c t rd ra rb rm => Sys2Proof.Machine.execFdiv c t rd ra rb rm s
  | .fsqrt c t rd ra rm => Sys2Proof.Machine.execFsqrt c t rd ra rm s
  | .frem c t rd ra rb => Sys2Proof.Machine.execFrem c t rd ra rb s
  | .fmin c t rd ra rb => Sys2Proof.Machine.execFmin c t rd ra rb s
  | .fmax c t rd ra rb => Sys2Proof.Machine.execFmax c t rd ra rb s
  | .fminn c t rd ra rb => Sys2Proof.Machine.execFminn c t rd ra rb s
  | .fmaxn c t rd ra rb => Sys2Proof.Machine.execFmaxn c t rd ra rb s
  | .feq c t rd ra rb => Sys2Proof.Machine.execFeq c t rd ra rb s
  | .flt c t rd ra rb => Sys2Proof.Machine.execFlt c t rd ra rb s
  | .fle c t rd ra rb => Sys2Proof.Machine.execFle c t rd ra rb s
  | .fun c t rd ra rb => Sys2Proof.Machine.execFun c t rd ra rb s
  | .fcpys c t rd ra rb => Sys2Proof.Machine.execFcpys c t rd ra rb s
  | .fneg c t rd ra => Sys2Proof.Machine.execFneg c t rd ra s
  | .fabs c t rd ra => Sys2Proof.Machine.execFabs c t rd ra s
  | .fscalb c t rd ra rb rm => Sys2Proof.Machine.execFscalb c t rd ra rb rm s
  | .flogb c t rd ra => Sys2Proof.Machine.execFlogb c t rd ra s
  | .frint c t rd ra rm => Sys2Proof.Machine.execFrint c t rd ra rm s
  | .frintx c t rd ra rm => Sys2Proof.Machine.execFrintx c t rd ra rm s
  | .fnup c t rd ra => Sys2Proof.Machine.execFnup c t rd ra s
  | .fndn c t rd ra => Sys2Proof.Machine.execFndn c t rd ra s
  | .fclass c t rd ra => Sys2Proof.Machine.execFclass c t rd ra s
  | .fma c t rd ra rb rc rm => Sys2Proof.Machine.execFma c t rd ra rb rc rm s
  | .fms c t rd ra rb rc rm => Sys2Proof.Machine.execFms c t rd ra rb rc rm s
  | .fnma c t rd ra rb rc rm => Sys2Proof.Machine.execFnma c t rd ra rb rc rm s
  | .fnms c t rd ra rb rc rm => Sys2Proof.Machine.execFnms c t rd ra rb rc rm s
  | .fcvtI c t rd ra rm => Sys2Proof.Machine.execFcvtI c t rd ra rm s
  | .fcvtU c t rd ra rm => Sys2Proof.Machine.execFcvtU c t rd ra rm s
  | .icvtF c t rd ra rm => Sys2Proof.Machine.execIcvtF c t rd ra rm s
  | .ucvtF c t rd ra rm => Sys2Proof.Machine.execUcvtF c t rd ra rm s
  | .fcvtS c t rd ra rm => Sys2Proof.Machine.execFcvtS c t rd ra rm s
  | .scvtF c t rd ra => Sys2Proof.Machine.execScvtF c t rd ra s
  | .ld c t rd ra disp => Sys2Proof.Machine.execLd c t rd ra disp s
  | .ldI c t rd ra disp => Sys2Proof.Machine.execLdI c t rd ra disp s
  | .ldF c t rd ra disp => Sys2Proof.Machine.execLdF c t rd ra disp s
  | .ldP c t rd ra disp => Sys2Proof.Machine.execLdP c t rd ra disp s
  | .ldH c t rd ra disp => Sys2Proof.Machine.execLdH c t rd ra disp s
  | .lds c t rd ra sz sx disp => Sys2Proof.Machine.execLds c t rd ra sz sx disp s
  | .st c t rd ra disp => Sys2Proof.Machine.execSt c t rd ra disp s
  | .sts c t rd ra sz disp => Sys2Proof.Machine.execSts c t rd ra sz disp s
  | .bmov c t rd ra rb => Sys2Proof.Machine.execBmov c t rd ra rb s
  | .bmovBlock c t => Sys2Proof.Machine.execBmovBlock c t s
  | .in_ c t rd ra imm => Sys2Proof.Machine.execIn c t rd ra imm s
  | .out c t rd ra imm => Sys2Proof.Machine.execOut c t rd ra imm s
  | .bcc c t ra cond off => Sys2Proof.Machine.execBcc c t ra cond off s
  | .jal c t rd off => Sys2Proof.Machine.execJal c t rd off s
  | .jalr c t rd ra => Sys2Proof.Machine.execJalr c t rd ra s
  | .loop c t lv ra imm => Sys2Proof.Machine.execLoop c t lv ra imm s
  | .mft c t rd sel => Sys2Proof.Machine.execMft c t rd sel s
  | .mtt c t ra sel => Sys2Proof.Machine.execMtt c t ra sel s
  | .sysc c t n => Sys2Proof.Machine.execSysc c t n s
  | .sysret c t => Sys2Proof.Machine.execSysret c t s
  | .trap c t n => Sys2Proof.Machine.execTrap c t n s
  | .retx c t => Sys2Proof.Machine.execRetx c t s
  | .retd c t => Sys2Proof.Machine.execRetd c t s
  | .setm c t m => Sys2Proof.Machine.execSetm c t m s
  | .arm c t => Sys2Proof.Machine.execArm c t s
  | .mov c t rd ra => Sys2Proof.Machine.execMov c t rd ra s
  | .tagof c t rd ra => Sys2Proof.Machine.execTagof c t rd ra s
  | .asraw c t rd ra => Sys2Proof.Machine.execAsraw c t rd ra s
  | .asint c t rd ra => Sys2Proof.Machine.execAsint c t rd ra s
  | .asflt c t rd ra => Sys2Proof.Machine.execAsflt c t rd ra s
  | .pbase c t rd ra => Sys2Proof.Machine.execPbase c t rd ra s
  | .plen c t rd ra => Sys2Proof.Machine.execPlen c t rd ra s
  | .poff c t rd ra => Sys2Proof.Machine.execPoff c t rd ra s
  | .pperm c t rd ra => Sys2Proof.Machine.execPperm c t rd ra s
  | .psub c t rd ra rb => Sys2Proof.Machine.execPsub c t rd ra rb s
  | .prdonly c t rd ra => Sys2Proof.Machine.execPrdonly c t rd ra s
  | .msgptr0 c t rd ra => Sys2Proof.Machine.execMsgptr0 c t rd ra s
  | .msgptr1 c t rd ra => Sys2Proof.Machine.execMsgptr1 c t rd ra s
  | .schip c t rd ra => Sys2Proof.Machine.execSchip c t rd ra s
  | .skind c t rd ra => Sys2Proof.Machine.execSkind c t rd ra s
  | .mkptr c t rd ra rb perm => Sys2Proof.Machine.execMkptr c t rd ra rb perm s
  | .mksptr c t rd ra => Sys2Proof.Machine.execMksptr c t rd ra s
  | .mkhnd c t rd ra => Sys2Proof.Machine.execMkhnd c t rd ra s
  | .mkcode c t rd ra => Sys2Proof.Machine.execMkcode c t rd ra s
  | .imld c t rd ra => Sys2Proof.Machine.execImld c t rd ra s
  | .imst c t ra rb => Sys2Proof.Machine.execImst c t ra rb s
  | .ldS c t rd ra sz ty disp => Sys2Proof.Machine.execLdS c t rd ra sz ty disp s
  | .stS c t rd ra sz ty disp => Sys2Proof.Machine.execStS c t rd ra sz ty disp s
  | .scinc c t q rb n => Sys2Proof.Machine.execScinc c t q rb n s
  | .scincRel c t q sc rb n => Sys2Proof.Machine.execScincRel c t q sc rb n s
  | .scincR c t q ra rb => Sys2Proof.Machine.execScincR c t q ra rb s
  | .scincRRel c t q sc ra rb => Sys2Proof.Machine.execScincRRel c t q sc ra rb s
  | .waitGe c t q sc rb n => Sys2Proof.Machine.execWaitGe c t q sc rb n s
  | .waitBg c t q sc rb n => Sys2Proof.Machine.execWaitBg c t q sc rb n s
  | .rel c t q sc => Sys2Proof.Machine.execRel c t q sc s
  | .acq c t sc => Sys2Proof.Machine.execAcq c t sc s
  | .barr c t q sc n => Sys2Proof.Machine.execBarr c t q sc n s
  | .pace c t => Sys2Proof.Machine.execPace c t s
  | .send c t ra rb rc => Sys2Proof.Machine.execSend c t ra rb rc s
  | .done c t => Sys2Proof.Machine.execDone c t s
  | .open_ c t ra => Sys2Proof.Machine.execOpen c t ra s
  | .close c t ra => Sys2Proof.Machine.execClose c t ra s
  | .dmago c t ra rb => Sys2Proof.Machine.execDmago c t ra rb s
  | .dmaabort c t ra => Sys2Proof.Machine.execDmaabort c t ra s
  | .tmma c t ad ta tb m1 n1 k1 z kh u => Sys2Proof.Machine.execTmma c t ad ta tb m1 n1 k1 z kh u s
  | .tload c t dst ra rb mode r1 ty cb => Sys2Proof.Machine.execTload c t dst ra rb mode r1 ty cb s
  | .tstore c t src ra rb fmt r1 sr ovn => Sys2Proof.Machine.execTstore c t src ra rb fmt r1 sr ovn s
  | .tmov c t dst src cv sr ovn h => Sys2Proof.Machine.execTmov c t dst src cv sr ovn h s
  | .tmovv c t tile v row dir => Sys2Proof.Machine.execTmovv c t tile v row dir s
  | .tinit c t tile r1 c1 ty => Sys2Proof.Machine.execTinit c t tile r1 c1 ty s
  | .trel c t tile => Sys2Proof.Machine.execTrel c t tile s
  | .arel c t tile => Sys2Proof.Machine.execArel c t tile s
  | .vadd c t vd va vb rm => Sys2Proof.Machine.execVadd c t vd va vb rm s
  | .vsub c t vd va vb rm => Sys2Proof.Machine.execVsub c t vd va vb rm s
  | .vmul c t vd va vb rm => Sys2Proof.Machine.execVmul c t vd va vb rm s
  | .vdiv c t vd va vb rm => Sys2Proof.Machine.execVdiv c t vd va vb rm s
  | .vsqrt c t vd va rm => Sys2Proof.Machine.execVsqrt c t vd va rm s
  | .vmin c t vd va vb => Sys2Proof.Machine.execVmin c t vd va vb s
  | .vmax c t vd va vb => Sys2Proof.Machine.execVmax c t vd va vb s
  | .vminn c t vd va vb => Sys2Proof.Machine.execVminn c t vd va vb s
  | .vmaxn c t vd va vb => Sys2Proof.Machine.execVmaxn c t vd va vb s
  | .vceq c t vd va vb => Sys2Proof.Machine.execVceq c t vd va vb s
  | .vclt c t vd va vb => Sys2Proof.Machine.execVclt c t vd va vb s
  | .vcle c t vd va vb => Sys2Proof.Machine.execVcle c t vd va vb s
  | .vneg c t vd va => Sys2Proof.Machine.execVneg c t vd va s
  | .vabs c t vd va => Sys2Proof.Machine.execVabs c t vd va s
  | .vcpys c t vd va vb => Sys2Proof.Machine.execVcpys c t vd va vb s
  | .vexp2 c t vd va => Sys2Proof.Machine.execVexp2 c t vd va s
  | .vlog2 c t vd va => Sys2Proof.Machine.execVlog2 c t vd va s
  | .vrcp c t vd va => Sys2Proof.Machine.execVrcp c t vd va s
  | .vrsq c t vd va => Sys2Proof.Machine.execVrsq c t vd va s
  | .vfma c t vd va vb vc rm => Sys2Proof.Machine.execVfma c t vd va vb vc rm s
  | .vfms c t vd va vb vc rm => Sys2Proof.Machine.execVfms c t vd va vb vc rm s
  | .vfnma c t vd va vb vc rm => Sys2Proof.Machine.execVfnma c t vd va vb vc rm s
  | .vfnms c t vd va vb vc rm => Sys2Proof.Machine.execVfnms c t vd va vb vc rm s
  | .viadd c t vd va vb w => Sys2Proof.Machine.execViadd c t vd va vb w s
  | .visub c t vd va vb w => Sys2Proof.Machine.execVisub c t vd va vb w s
  | .viadds c t vd va vb w => Sys2Proof.Machine.execViadds c t vd va vb w s
  | .visubs c t vd va vb w => Sys2Proof.Machine.execVisubs c t vd va vb w s
  | .vimul c t vd va vb w => Sys2Proof.Machine.execVimul c t vd va vb w s
  | .vimulh c t vd va vb w => Sys2Proof.Machine.execVimulh c t vd va vb w s
  | .vimin c t vd va vb w => Sys2Proof.Machine.execVimin c t vd va vb w s
  | .vimax c t vd va vb w => Sys2Proof.Machine.execVimax c t vd va vb w s
  | .viminu c t vd va vb w => Sys2Proof.Machine.execViminu c t vd va vb w s
  | .vimaxu c t vd va vb w => Sys2Proof.Machine.execVimaxu c t vd va vb w s
  | .vand c t vd va vb w => Sys2Proof.Machine.execVand c t vd va vb w s
  | .vor c t vd va vb w => Sys2Proof.Machine.execVor c t vd va vb w s
  | .vxor c t vd va vb w => Sys2Proof.Machine.execVxor c t vd va vb w s
  | .vshl c t vd va vb w => Sys2Proof.Machine.execVshl c t vd va vb w s
  | .vshr c t vd va vb w => Sys2Proof.Machine.execVshr c t vd va vb w s
  | .vsra c t vd va vb w => Sys2Proof.Machine.execVsra c t vd va vb w s
  | .viceq c t vd va vb w => Sys2Proof.Machine.execViceq c t vd va vb w s
  | .viclt c t vd va vb w => Sys2Proof.Machine.execViclt c t vd va vb w s
  | .vicltu c t vd va vb w => Sys2Proof.Machine.execVicltu c t vd va vb w s
  | .vbsl c t vd va vb w => Sys2Proof.Machine.execVbsl c t vd va vb w s
  | .viabs c t vd va w => Sys2Proof.Machine.execViabs c t vd va w s
  | .vcvtDf16 c t vd va part sr ovn => Sys2Proof.Machine.execVcvtDf16 c t vd va part sr ovn s
  | .vcvtDf8 c t vd va part sr ovn => Sys2Proof.Machine.execVcvtDf8 c t vd va part sr ovn s
  | .vcvtFDf16 c t vd va part => Sys2Proof.Machine.execVcvtFDf16 c t vd va part s
  | .vcvtFDf8 c t vd va part => Sys2Proof.Machine.execVcvtFDf8 c t vd va part s
  | .vcvtI32 c t vd va rm => Sys2Proof.Machine.execVcvtI32 c t vd va rm s
  | .vcvtFI32 c t vd va rm => Sys2Proof.Machine.execVcvtFI32 c t vd va rm s
  | .vcvtI32I16 c t vd va part => Sys2Proof.Machine.execVcvtI32I16 c t vd va part s
  | .vcvtI16 c t vd va part => Sys2Proof.Machine.execVcvtI16 c t vd va part s
  | .vcvtI32Di8 c t vd va part => Sys2Proof.Machine.execVcvtI32Di8 c t vd va part s
  | .vcvtDi8 c t vd va part => Sys2Proof.Machine.execVcvtDi8 c t vd va part s
  | .vqnt32 c t vd va rb => Sys2Proof.Machine.execVqnt32 c t vd va rb s
  | .vqnt64 c t vd va rb part => Sys2Proof.Machine.execVqnt64 c t vd va rb part s
  | .vdq32 c t vd va rb rm => Sys2Proof.Machine.execVdq32 c t vd va rb rm s
  | .vdq64 c t vd va rb part rm => Sys2Proof.Machine.execVdq64 c t vd va rb part rm s
  | .vgexp c t vd va => Sys2Proof.Machine.execVgexp c t vd va s
  | .vld c t vd ra => Sys2Proof.Machine.execVld c t vd ra s
  | .vlds c t vd ra rb => Sys2Proof.Machine.execVlds c t vd ra rb s
  | .vst c t vd ra x => Sys2Proof.Machine.execVst c t vd ra x s
  | .vredRows c t vd ra rb op z => Sys2Proof.Machine.execVredRows c t vd ra rb op z s
  | .vperm c t vd va vb => Sys2Proof.Machine.execVperm c t vd va vb s
  | .vrot c t vd va imm => Sys2Proof.Machine.execVrot c t vd va imm s
  | .vbcl c t vd va imm => Sys2Proof.Machine.execVbcl c t vd va imm s
  | .vsplat c t vd rb imm => Sys2Proof.Machine.execVsplat c t vd rb imm s
  | .vzipl c t vd va vb => Sys2Proof.Machine.execVzipl c t vd va vb s
  | .vziph c t vd va vb => Sys2Proof.Machine.execVziph c t vd va vb s
  | .vuzpe c t vd va vb => Sys2Proof.Machine.execVuzpe c t vd va vb s
  | .vuzpo c t vd va vb => Sys2Proof.Machine.execVuzpo c t vd va vb s
  | .vhaddF c t vd va rm => Sys2Proof.Machine.execVhaddF c t vd va rm s
  | .vhmaxF c t vd va => Sys2Proof.Machine.execVhmaxF c t vd va s
  | .vhminF c t vd va => Sys2Proof.Machine.execVhminF c t vd va s
  | .vhaddI32 c t vd va => Sys2Proof.Machine.execVhaddI32 c t vd va s
  | .vhmaxI32 c t vd va => Sys2Proof.Machine.execVhmaxI32 c t vd va s
  | .vhaddI64 c t vd va => Sys2Proof.Machine.execVhaddI64 c t vd va s
  | .vrng c t vd uni => Sys2Proof.Machine.execVrng c t vd uni s
  | .asyncEventTaken c t => Sys2Proof.Machine.execAsyncEventTaken c t s
  | .watchdogExpiry c t => Sys2Proof.Machine.execWatchdogExpiry c t s
  | .timerCompareFire c t => Sys2Proof.Machine.execTimerCompareFire c t s
  | .tmrWaitRead c t rd n => Sys2Proof.Machine.execTmrWaitRead c t rd n s
  | .xswiRaise c n => Sys2Proof.Machine.execXswiRaise c n s
  | .xpendClear c n v => Sys2Proof.Machine.execXpendClear c n v s
  | .xstWrite c n who v => Sys2Proof.Machine.execXstWrite c n who v s
  | .xwdtWrite c n who v => Sys2Proof.Machine.execXwdtWrite c n who v s
  | .thrStart c t => Sys2Proof.Machine.execThrStart c t s
  | .thrHalt c t => Sys2Proof.Machine.execThrHalt c t s
  | .thrPark c t => Sys2Proof.Machine.execThrPark c t s
  | .thrUnpark c t => Sys2Proof.Machine.execThrUnpark c t s
  | .corePark c => Sys2Proof.Machine.execCorePark c s
  | .coreUnpark c => Sys2Proof.Machine.execCoreUnpark c s
  | .debugHalt c => Sys2Proof.Machine.execDebugHalt c s
  | .coreDispatchEnable c on => Sys2Proof.Machine.execCoreDispatchEnable c on s
  | .coreLock c => Sys2Proof.Machine.execCoreLock c s
  | .qownWrite c v => Sys2Proof.Machine.execQownWrite c v s
  | .handlerDispatch c => Sys2Proof.Machine.execHandlerDispatch c s
  | .waitConditionMet c t => Sys2Proof.Machine.execWaitConditionMet c t s
  | .engineCommandStart c k => Sys2Proof.Machine.execEngineCommandStart c k s
  | .engineCommandComplete c k => Sys2Proof.Machine.execEngineCommandComplete c k s
  | .coreReset c => Sys2Proof.Machine.execCoreReset c s
  | .mxeRetry c => Sys2Proof.Machine.execMxeRetry c s
  | .mxeDrop c => Sys2Proof.Machine.execMxeDrop c s
  | .mxePush c => Sys2Proof.Machine.execMxePush c s
  | .mxeTdataAccess c w => Sys2Proof.Machine.execMxeTdataAccess c w s
  | .mxeTagWrite c k v => Sys2Proof.Machine.execMxeTagWrite c k v s
  | .vxeRetry c => Sys2Proof.Machine.execVxeRetry c s
  | .vxeDrop c => Sys2Proof.Machine.execVxeDrop c s
  | .vxePush c => Sys2Proof.Machine.execVxePush c s
  | .vxeDefault c => Sys2Proof.Machine.execVxeDefault c s
  | .vxeVdataAccess c w => Sys2Proof.Machine.execVxeVdataAccess c w s
  | .ringEnable c n => Sys2Proof.Machine.execRingEnable c n s
  | .ringDisable c n => Sys2Proof.Machine.execRingDisable c n s
  | .ringStart c n => Sys2Proof.Machine.execRingStart c n s
  | .ringStopComplete c n => Sys2Proof.Machine.execRingStopComplete c n s
  | .ringAdv c n h t => Sys2Proof.Machine.execRingAdv c n h t s
  | .messageArrival c => Sys2Proof.Machine.execMessageArrival c s
  | .ringAppend c => Sys2Proof.Machine.execRingAppend c s
  | .messageInject c => Sys2Proof.Machine.execMessageInject c s
  | .dmaEnable c ch => Sys2Proof.Machine.execDmaEnable c ch s
  | .dmaDisable c ch => Sys2Proof.Machine.execDmaDisable c ch s
  | .dmaStart c ch => Sys2Proof.Machine.execDmaStart c ch s
  | .dmaStopComplete c ch => Sys2Proof.Machine.execDmaStopComplete c ch s
  | .dmaBurstStart c ch => Sys2Proof.Machine.execDmaBurstStart c ch s
  | .dmaRequestPulse c ch => Sys2Proof.Machine.execDmaRequestPulse c ch s
  | .dmaTransferComplete c ch => Sys2Proof.Machine.execDmaTransferComplete c ch s
  | .dmaStatusWritten c ch => Sys2Proof.Machine.execDmaStatusWritten c ch s
  | .dmaResume c ch => Sys2Proof.Machine.execDmaResume c ch s
  | .dmaDrop c ch => Sys2Proof.Machine.execDmaDrop c ch s
  | .dmaPush c ch => Sys2Proof.Machine.execDmaPush c ch s
  | .writeResponseArrival c => Sys2Proof.Machine.execWriteResponseArrival c s
  | .farLoadResponse c t => Sys2Proof.Machine.execFarLoadResponse c t s
  | .readDataArrival c => Sys2Proof.Machine.execReadDataArrival c s
  | .counterIncrementArrival c => Sys2Proof.Machine.execCounterIncrementArrival c s
  | .counterMarkBroken c => Sys2Proof.Machine.execCounterMarkBroken c s
  | .scClear c m => Sys2Proof.Machine.execScClear c m s
  | .bgenClear c m => Sys2Proof.Machine.execBgenClear c m s
  | .barrierDieArrived n => Sys2Proof.Machine.execBarrierDieArrived n s
  | .barrierUnitArrival k u => Sys2Proof.Machine.execBarrierUnitArrival k u s
  | .blxWrite n v => Sys2Proof.Machine.execBlxWrite n v s
  | .blxBrkClear n => Sys2Proof.Machine.execBlxBrkClear n s
  | .openRequestArrival c => Sys2Proof.Machine.execOpenRequestArrival c s
  | .grantArrival c => Sys2Proof.Machine.execGrantArrival c s
  | .refusalArrival c => Sys2Proof.Machine.execRefusalArrival c s
  | .channelCreditArrival c => Sys2Proof.Machine.execChannelCreditArrival c s
  | .closeRequestArrival c => Sys2Proof.Machine.execCloseRequestArrival c s
  | .closeNoticeArrival c => Sys2Proof.Machine.execCloseNoticeArrival c s
  | .abandonNoticeArrival c => Sys2Proof.Machine.execAbandonNoticeArrival c s
  | .chiEnable c n => Sys2Proof.Machine.execChiEnable c n s
  | .chiDisable c n => Sys2Proof.Machine.execChiDisable c n s
  | .choEnable c n => Sys2Proof.Machine.execChoEnable c n s
  | .choDisable c n => Sys2Proof.Machine.execChoDisable c n s
  | .flitArrival n p x => Sys2Proof.Machine.execFlitArrival n p x s
  | .schedFwd n p => Sys2Proof.Machine.execSchedFwd n p s
  | .schedRed n p => Sys2Proof.Machine.execSchedRed n p s
  | .ingressItem c => Sys2Proof.Machine.execIngressItem c s
  | .routerEnable n => Sys2Proof.Machine.execRouterEnable n s
  | .routerDisable n => Sys2Proof.Machine.execRouterDisable n s
  | .routerStart n => Sys2Proof.Machine.execRouterStart n s
  | .routerStopComplete n => Sys2Proof.Machine.execRouterStopComplete n s
  | .routeEntryWrite n off v => Sys2Proof.Machine.execRouteEntryWrite n off v s
  | .routerStallWatchdog n p => Sys2Proof.Machine.execRouterStallWatchdog n p s
  | .svcPacketArrival sw => Sys2Proof.Machine.execSvcPacketArrival sw s
  | .svcAckArrival sw => Sys2Proof.Machine.execSvcAckArrival sw s
  | .svcResendTimeout sw => Sys2Proof.Machine.execSvcResendTimeout sw s
  | .halfOffRequest east => Sys2Proof.Machine.execHalfOffRequest east s
  | .halfOffDrainEnd => Sys2Proof.Machine.execHalfOffDrainEnd s
  | .halfOnRequest east => Sys2Proof.Machine.execHalfOnRequest east s
  | .halfPowerGood east => Sys2Proof.Machine.execHalfPowerGood east s
  | .hostWindowFlushRead => Sys2Proof.Machine.execHostWindowFlushRead s
  | .hostWindowReadCompletion tag data status ep => Sys2Proof.Machine.execHostWindowReadCompletion tag data status ep s
  | .doorbellWrite n v => Sys2Proof.Machine.execDoorbellWrite n v s
  | .doorbellDelivery => Sys2Proof.Machine.execDoorbellDelivery s
  | .hbmAccept h j mesh x => Sys2Proof.Machine.execHbmAccept h j mesh x s
  | .refreshWindow h => Sys2Proof.Machine.execRefreshWindow h s
  | .bankRefresh h pc => Sys2Proof.Machine.execBankRefresh h pc s
  | .patrolScrubRead h x => Sys2Proof.Machine.execPatrolScrubRead h x s
  | .patrolOverdue h => Sys2Proof.Machine.execPatrolOverdue h s
  | .softRepair h pc row x => Sys2Proof.Machine.execSoftRepair h pc row x s
  | .doubledRefreshBegin h temp => Sys2Proof.Machine.execDoubledRefreshBegin h temp s
  | .doubledRefreshEnd h temp => Sys2Proof.Machine.execDoubledRefreshEnd h temp s
  | .regionEnable n => Sys2Proof.Machine.execRegionEnable n s
  | .regionDisable n => Sys2Proof.Machine.execRegionDisable n s
  | .regionStartComplete n => Sys2Proof.Machine.execRegionStartComplete n s
  | .regionStopComplete n => Sys2Proof.Machine.execRegionStopComplete n s
  | .stackEnable h => Sys2Proof.Machine.execStackEnable h s
  | .stackDisable h => Sys2Proof.Machine.execStackDisable h s
  | .stackStartComplete h ok => Sys2Proof.Machine.execStackStartComplete h ok s
  | .stackStopComplete h => Sys2Proof.Machine.execStackStopComplete h s
  | .cellSend k => Sys2Proof.Machine.execCellSend k s
  | .cellReceive k x words => Sys2Proof.Machine.execCellReceive k x words s
  | .replayUnitArrival k u => Sys2Proof.Machine.execReplayUnitArrival k u s
  | .replayTimeout k => Sys2Proof.Machine.execReplayTimeout k s
  | .lcreditArrival k u => Sys2Proof.Machine.execLcreditArrival k u s
  | .lcreditSend k => Sys2Proof.Machine.execLcreditSend k s
  | .urgentUnitSend k onWire => Sys2Proof.Machine.execUrgentUnitSend k onWire s
  | .ccreditArrival k u => Sys2Proof.Machine.execCcreditArrival k u s
  | .chipdownArrival k u => Sys2Proof.Machine.execChipdownArrival k u s
  | .laneSpareDetect k lane x => Sys2Proof.Machine.execLaneSpareDetect k lane x s
  | .laneswapArrival k u => Sys2Proof.Machine.execLaneswapArrival k u s
  | .laneSwap k => Sys2Proof.Machine.execLaneSwap k s
  | .portAckTimeout k => Sys2Proof.Machine.execPortAckTimeout k s
  | .portEnable k => Sys2Proof.Machine.execPortEnable k s
  | .portDisable k => Sys2Proof.Machine.execPortDisable k s
  | .portTrainingComplete k x => Sys2Proof.Machine.execPortTrainingComplete k x s
  | .portStopComplete k => Sys2Proof.Machine.execPortStopComplete k s
  | .beaconEmit => Sys2Proof.Machine.execBeaconEmit s
  | .beaconArrival k u crc => Sys2Proof.Machine.execBeaconArrival k u crc s
  | .delayMeasure k => Sys2Proof.Machine.execDelayMeasure k s
  | .delayUnitArrival k u crc wait => Sys2Proof.Machine.execDelayUnitArrival k u crc wait s
  | .holdoverEntry => Sys2Proof.Machine.execHoldoverEntry s
  | .holdoverTimeout => Sys2Proof.Machine.execHoldoverTimeout s
  | .tbSyncEdge => Sys2Proof.Machine.execTbSyncEdge s
  | .tbSyncLost => Sys2Proof.Machine.execTbSyncLost s
  | .tbSteparmWrite v => Sys2Proof.Machine.execTbSteparmWrite v s
  | .tbRoleWrite v => Sys2Proof.Machine.execTbRoleWrite v s
  | .paceBoundary c => Sys2Proof.Machine.execPaceBoundary c s
  | .paceModeSet c => Sys2Proof.Machine.execPaceModeSet c s
  | .paceModeClear c => Sys2Proof.Machine.execPaceModeClear c s
  | .cmdFetch x => Sys2Proof.Machine.execCmdFetch x s
  | .load data secs => Sys2Proof.Machine.execLoad data secs s
  | .start => Sys2Proof.Machine.execStart s
  | .stop => Sys2Proof.Machine.execStop s
  | .query => Sys2Proof.Machine.execQuery s
  | .resetJobClear => Sys2Proof.Machine.execResetJobClear s
  | .resetWarm => Sys2Proof.Machine.execResetWarm s
  | .map => Sys2Proof.Machine.execMap s
  | .fieldmap data => Sys2Proof.Machine.execFieldmap data s
  | .jobExitWrite v => Sys2Proof.Machine.execJobExitWrite v s
  | .hotReset => Sys2Proof.Machine.execHotReset s
  | .hostRingEnable r v => Sys2Proof.Machine.execHostRingEnable r v s
  | .hostBar2Read a len x => Sys2Proof.Machine.execHostBar2Read a len x s
  | .hostBar2Write a data ep x => Sys2Proof.Machine.execHostBar2Write a data ep x s
  | .hostBar4Read a len => Sys2Proof.Machine.execHostBar4Read a len s
  | .hostBar4Write a data ep => Sys2Proof.Machine.execHostBar4Write a data ep s
  | .msixRaise v => Sys2Proof.Machine.execMsixRaise v s
  | .coldReset => Sys2Proof.Machine.execColdReset s
  | .coldResetRelease => Sys2Proof.Machine.execColdResetRelease s
  | .bringupPhaseEnd x => Sys2Proof.Machine.execBringupPhaseEnd x s
  | .brgAccept v => Sys2Proof.Machine.execBrgAccept v s
  | .clusterEnable n => Sys2Proof.Machine.execClusterEnable n s
  | .clusterDisable n => Sys2Proof.Machine.execClusterDisable n s
  | .clusterStartComplete n => Sys2Proof.Machine.execClusterStartComplete n s
  | .clusterStopComplete n => Sys2Proof.Machine.execClusterStopComplete n s
  | .clusterReset n => Sys2Proof.Machine.execClusterReset n s
  | .firmwarePushChunk r => Sys2Proof.Machine.execFirmwarePushChunk r s
  | .tokenUnlock r => Sys2Proof.Machine.execTokenUnlock r s
  | .tokenReturn r => Sys2Proof.Machine.execTokenReturn r s
  | .tokenScrap r => Sys2Proof.Machine.execTokenScrap r s
  | .tokenSlotEnable r => Sys2Proof.Machine.execTokenSlotEnable r s
  | .tokenSlotRevoke r => Sys2Proof.Machine.execTokenSlotRevoke r s
  | .tokenFieldmapEdit r => Sys2Proof.Machine.execTokenFieldmapEdit r s
  | .quote r => Sys2Proof.Machine.execQuote r s
  | .svnCommit x => Sys2Proof.Machine.execSvnCommit x s
  | .ext7 => Sys2Proof.Machine.execExt7 s
  | .topologyWrite r => Sys2Proof.Machine.execTopologyWrite r s
  | .topologyRead r => Sys2Proof.Machine.execTopologyRead r s
  | .fieldmapExport r => Sys2Proof.Machine.execFieldmapExport r s
  | .certRead r => Sys2Proof.Machine.execCertRead r s
  | .debugPacket r => Sys2Proof.Machine.execDebugPacket r s
  | .pldmFwUpdate r => Sys2Proof.Machine.execPldmFwUpdate r s
  | .pldmSensorRead r => Sys2Proof.Machine.execPldmSensorRead r s
  | .mctpControl r => Sys2Proof.Machine.execMctpControl r s
  | .telemetryFrame sensors eyes => Sys2Proof.Machine.execTelemetryFrame sensors eyes s
  | .telEnable v => Sys2Proof.Machine.execTelEnable v s
  | .governorWindowEnd mw hot => Sys2Proof.Machine.execGovernorWindowEnd mw hot s
  | .throttleAssert => Sys2Proof.Machine.execThrottleAssert s
  | .throttleRelease => Sys2Proof.Machine.execThrottleRelease s
  | .thermtrip => Sys2Proof.Machine.execThermtrip s
  | .fatalError key detail => Sys2Proof.Machine.execFatalError key detail s
  | .streamFailNotify => Sys2Proof.Machine.execStreamFailNotify s
  | .recordForward q => Sys2Proof.Machine.execRecordForward q s
  | .logMirror => Sys2Proof.Machine.execLogMirror s
  | .dripEnable => Sys2Proof.Machine.execDripEnable s
  | .dripDisable => Sys2Proof.Machine.execDripDisable s
  | .dripStart => Sys2Proof.Machine.execDripStart s
  | .dripStopComplete => Sys2Proof.Machine.execDripStopComplete s
  | .engineSelftest c vxe bad spareBad word => Sys2Proof.Machine.execEngineSelftest c vxe bad spareBad word s
  | .spadScrub c line x => Sys2Proof.Machine.execSpadScrub c line x s
  | .imemScrub c word ce ue => Sys2Proof.Machine.execImemScrub c word ce ue s
  | .scrubOverdue c imem pass => Sys2Proof.Machine.execScrubOverdue c imem pass s
  | .linkMargin k lane bad n => Sys2Proof.Machine.execLinkMargin k lane bad n s
  | .calibration sensor bad => Sys2Proof.Machine.execCalibration sensor bad s
  | .agingMeasure east mv => Sys2Proof.Machine.execAgingMeasure east mv s
  | .ccHeartbeatMiss n pc restored => Sys2Proof.Machine.execCcHeartbeatMiss n pc restored s
  | .pwrgoodFall => Sys2Proof.Machine.execPwrgoodFall s
  | .registerWrite a v => Sys2Proof.Machine.execRegisterWrite a v s
  | .configRequest bme msix => Sys2Proof.Machine.execConfigRequest bme msix s
  | .jtagInstruction n => Sys2Proof.Machine.execJtagInstruction n s
  | .startTick => Sys2Proof.Machine.execStartTick s
  | .jobClearComplete => Sys2Proof.Machine.execJobClearComplete s
  | .engineParked c k row => Sys2Proof.Machine.execEngineParked c k row s

end Sys2Proof.Machine
end

