-- ==== Sys2Proof/Machine/Tick.lean ====
section
/-! DEFINITION. What time alone does: the tick of the time base on an empty queue (spec 00 R8; 02 Tables 2-7 and 2-8; 05 Table 5-1; 11 R357; 15 R489; 22 R640). -/

namespace Sys2Proof.Machine

/-- The next tick of the TB: the learned frequency and a TB_SYNC slew move the fraction, and the tick departs from one as they and the servo have asked (R489, R490, R492). -/
def State.tbTick (s : State) : State :=
  let t := s.tbr.drift s.tb
  if t.slew = 0 then { s with tb := (s.tb + 1) % 2 ^ 64, tbr := t }
  else
    let now := ((s.tb : Int) + 1 + t.slew).toNat % 2 ^ 64
    { s with tb := now, tbr := { t with slew := 0, slewAt := now } }

/-- A step of a thread in WAIT. -/
def Thread.waitStep (th : Thread) : Thread := if th.st = .wait then { th with wsteps := th.wsteps + 1 } else th

/-- A step of a core: CORE.STEPS, THR.n.WSTEPS and TRK.FULL (log entry 1). -/
def Core.stepCounters (c : Core) : Core :=
  if c.held then c
  else
    let waits := c.thr.any fun p => p.2.st == .wait && p.2.wcause == .trkFull
    { c with steps := c.steps + 1, thr := c.thr.map fun p => (p.1, p.2.waitStep)
             trk := { c.trk with full := c.trk.full + b2n waits } }

/-- The MC's own write that starts the Drip after phase 8 (R640). -/
def State.dripDue (s : State) : State :=
  if s.mc.dripDue then { s.dripEnable true with mc := { (s.dripEnable true).mc with dripDue := false } } else s

/-- A tick: nothing while PWRGOOD or PERST_N is low. -/
def State.tick (s : State) : State :=
  if s.brg.phase = 0 then s
  else (({ s.tbTick with cores := s.cores.map fun p => (p.1, p.2.stepCounters) } : State).dripDue).loadPoll

end Sys2Proof.Machine
end

