-- ==== Sys2Proof/Safety.lean ====
section
/-! DEFINITION. What counts as a safe run, and the vocabulary of the claims: the canonical forms and ranges that every command keeps, when a thread may issue an instruction, and what its completion or its fault leaves. -/

namespace Sys2Proof.Machine

/-! ## Canonical forms and one-way quantities -/

/-- The byte memories of a core: its scratchpad, tile file, vector file, test tile and test accumulator, and what the cell sets and the operand cache hold. -/
def Core.memories (c : Core) : List Mem :=
  [c.spad.bytes, c.mxe.tiles, c.vxe.v, c.mxe.testTile, c.mxe.testAcc, c.mxe.cell0.data, c.mxe.cell1.data, c.mxe.panel0.data, c.mxe.panel1.data]

/-- The byte memories of the block: those of the cores, the stacks and the mailbox buffers. -/
def State.memories (s : State) : List Mem :=
  s.cores.flatMap (fun p => p.2.memories) ++ s.hbm.map (fun p => p.2.mem) ++ [s.mbx.reqbuf, s.mbx.push]

/-- Every byte memory has its canonical form. -/
def State.memWf (s : State) : Bool := s.memories.all Mem.wf

/-- One-way quantities: fuses that only burn (R588 to R603, R596). -/
def Fuses.grown (a b : Fuses) : Bool :=
  decide (a.lc ≤ b.lc) && decide (a.svn ≤ b.svn) && decide (a.claims ≤ b.claims) && (!a.kill || b.kill)
    && decide (a.slotEn &&& b.slotEn = a.slotEn) && decide (a.slotRev &&& b.slotRev = a.slotRev) && (a.secret.isNone || a.secret == b.secret)

/-! ## Issue -/

/-- Thread t of core c issues an instruction of which issue knows `i`: the core is out of core reset, the context is enabled and in RUN (R42, R43), and none of the faults that come before an operand is read applies (R98). -/
structure MayIssue (s : State) (c : CoreId) (t : Thr) (i : IssueInfo) : Prop where
  live    : (s.coreAt c.val).held = false
  enabled : t.val < (s.env c.val).nthr
  run     : ((s.coreAt c.val).thread t.val).st = .run
  noBmov  : ((s.coreAt c.val).thread t.val).bmov = none
  fetch   : bit (s.coreAt c.val).nxmap (((s.coreAt c.val).thread t.val).pc.toNat / 1024) = false
  clean   : mget false (s.coreAt c.val).imark (((s.coreAt c.val).thread t.val).pc.toNat / 4) = false
  word    : legalWord ((s.coreAt c.val).fetched ((s.coreAt c.val).thread t.val)) = true
  legal   : i.illegal = false
  slot    : i.noSlot = true → ((s.coreAt c.val).thread t.val).slot = none
  loops   : i.loopEnd = true → loopAt ((s.coreAt c.val).thread t.val) ((s.coreAt c.val).thread t.val).pc = none
  slotEnd : i.branch = true → loopAt ((s.coreAt c.val).thread t.val) (pcNext ((s.coreAt c.val).thread t.val).pc) = none
  keeps   : ∀ sl r, ((s.coreAt c.val).thread t.val).slot = some sl → sl.reads = some r → r ≠ 0 → r ∉ i.writes
  mode    : i.priv = true → ((s.coreAt c.val).thread t.val).smode = true

/-- Register r of thread t of core c. -/
def State.greg (s : State) (c : CoreId) (t : Thr) (r : Reg) : TWord := ((s.coreAt c.val).thread t.val).reg r.val

/-- Thread t of core c. -/
def State.thrOf (s : State) (c : CoreId) (t : Thr) : Thread := (s.coreAt c.val).thread t.val

/-- Completion of the instruction of thread t with the next in sequence to follow (R118, R122): the thread counts it, and a pending HALT is taken where R44 allows. -/
def Core.retire (k : Core) (t : Nat) : Core :=
  (k.updThread t Thread.count).updThread t fun th => th.ran.advance.boundary

/-- Core c changed by f, everything else as before. -/
def State.after (s : State) (c : CoreId) (f : Core → Core) : State := s.setCore c.val (f (s.coreAt c.val))

/-- Core c changed by f, after which its rings settle when a tracker entry or a place in issue order has gone (R195). -/
def State.settled (s : State) (c : CoreId) (f : Core → Core) : State := s.onCore c.val fun e k => k.settleAfter e (f k, [])

/-- An instruction of thread t of core c that changes its core by f and completes. -/
def State.retired (s : State) (c : CoreId) (t : Thr) (f : Core → Core) : State := s.after c fun k => (f k).retire t.val

/-- An instruction of thread t of core c that completes with register rd holding w. -/
def State.wrote (s : State) (c : CoreId) (t : Thr) (rd : Reg) (w : TWord) : State :=
  s.retired c t fun k => k.setReg t.val rd.val w

/-- A precise fault at the instruction of thread t of core c: the entry that R135, R145 and R146 describe, and nothing else of the instruction. -/
def State.faulted (s : State) (c : CoreId) (t : Thr) (ev : Ev) : State :=
  s.onCore c.val fun e k => raise e (k.updThread t.val Thread.count) t.val ev

/-! ## Instruction words -/

/-- The core and thread in which a word of the instruction set issues; none for an event. -/
def wordOf : Instr → Option (CoreId × Thr)
  | .add c t _ _ _ => some (c, t)
  | .sub c t _ _ _ => some (c, t)
  | .and_ c t _ _ _ => some (c, t)
  | .or_ c t _ _ _ => some (c, t)
  | .xor c t _ _ _ => some (c, t)
  | .shl c t _ _ _ => some (c, t)
  | .shr c t _ _ _ => some (c, t)
  | .sra c t _ _ _ => some (c, t)
  | .mul c t _ _ _ => some (c, t)
  | .mulh c t _ _ _ => some (c, t)
  | .mulhu c t _ _ _ => some (c, t)
  | .div c t _ _ _ => some (c, t)
  | .divu c t _ _ _ => some (c, t)
  | .rem c t _ _ _ => some (c, t)
  | .remu c t _ _ _ => some (c, t)
  | .min_ c t _ _ _ => some (c, t)
  | .max_ c t _ _ _ => some (c, t)
  | .minu c t _ _ _ => some (c, t)
  | .maxu c t _ _ _ => some (c, t)
  | .ceq c t _ _ _ => some (c, t)
  | .clt c t _ _ _ => some (c, t)
  | .cltu c t _ _ _ => some (c, t)
  | .clz c t _ _ => some (c, t)
  | .ctz c t _ _ => some (c, t)
  | .popc c t _ _ => some (c, t)
  | .addi c t _ _ _ => some (c, t)
  | .andi c t _ _ _ => some (c, t)
  | .ori c t _ _ _ => some (c, t)
  | .xori c t _ _ _ => some (c, t)
  | .shli c t _ _ _ => some (c, t)
  | .shri c t _ _ _ => some (c, t)
  | .srai c t _ _ _ => some (c, t)
  | .clti c t _ _ _ => some (c, t)
  | .cltui c t _ _ _ => some (c, t)
  | .movi c t _ _ => some (c, t)
  | .movk c t _ _ _ => some (c, t)
  | .fadd c t _ _ _ _ => some (c, t)
  | .fsub c t _ _ _ _ => some (c, t)
  | .fmul c t _ _ _ _ => some (c, t)
  | .fdiv c t _ _ _ _ => some (c, t)
  | .fsqrt c t _ _ _ => some (c, t)
  | .frem c t _ _ _ => some (c, t)
  | .fmin c t _ _ _ => some (c, t)
  | .fmax c t _ _ _ => some (c, t)
  | .fminn c t _ _ _ => some (c, t)
  | .fmaxn c t _ _ _ => some (c, t)
  | .feq c t _ _ _ => some (c, t)
  | .flt c t _ _ _ => some (c, t)
  | .fle c t _ _ _ => some (c, t)
  | .fun c t _ _ _ => some (c, t)
  | .fcpys c t _ _ _ => some (c, t)
  | .fneg c t _ _ => some (c, t)
  | .fabs c t _ _ => some (c, t)
  | .fscalb c t _ _ _ _ => some (c, t)
  | .flogb c t _ _ => some (c, t)
  | .frint c t _ _ _ => some (c, t)
  | .frintx c t _ _ _ => some (c, t)
  | .fnup c t _ _ => some (c, t)
  | .fndn c t _ _ => some (c, t)
  | .fclass c t _ _ => some (c, t)
  | .fma c t _ _ _ _ _ => some (c, t)
  | .fms c t _ _ _ _ _ => some (c, t)
  | .fnma c t _ _ _ _ _ => some (c, t)
  | .fnms c t _ _ _ _ _ => some (c, t)
  | .fcvtI c t _ _ _ => some (c, t)
  | .fcvtU c t _ _ _ => some (c, t)
  | .icvtF c t _ _ _ => some (c, t)
  | .ucvtF c t _ _ _ => some (c, t)
  | .fcvtS c t _ _ _ => some (c, t)
  | .scvtF c t _ _ => some (c, t)
  | .ld c t _ _ _ => some (c, t)
  | .ldI c t _ _ _ => some (c, t)
  | .ldF c t _ _ _ => some (c, t)
  | .ldP c t _ _ _ => some (c, t)
  | .ldH c t _ _ _ => some (c, t)
  | .lds c t _ _ _ _ _ => some (c, t)
  | .st c t _ _ _ => some (c, t)
  | .sts c t _ _ _ _ => some (c, t)
  | .bmov c t _ _ _ => some (c, t)
  | .in_ c t _ _ _ => some (c, t)
  | .out c t _ _ _ => some (c, t)
  | .bcc c t _ _ _ => some (c, t)
  | .jal c t _ _ => some (c, t)
  | .jalr c t _ _ => some (c, t)
  | .loop c t _ _ _ => some (c, t)
  | .mft c t _ _ => some (c, t)
  | .mtt c t _ _ => some (c, t)
  | .sysc c t _ => some (c, t)
  | .sysret c t => some (c, t)
  | .trap c t _ => some (c, t)
  | .retx c t => some (c, t)
  | .retd c t => some (c, t)
  | .setm c t _ => some (c, t)
  | .arm c t => some (c, t)
  | .mov c t _ _ => some (c, t)
  | .tagof c t _ _ => some (c, t)
  | .asraw c t _ _ => some (c, t)
  | .asint c t _ _ => some (c, t)
  | .asflt c t _ _ => some (c, t)
  | .pbase c t _ _ => some (c, t)
  | .plen c t _ _ => some (c, t)
  | .poff c t _ _ => some (c, t)
  | .pperm c t _ _ => some (c, t)
  | .psub c t _ _ _ => some (c, t)
  | .prdonly c t _ _ => some (c, t)
  | .msgptr0 c t _ _ => some (c, t)
  | .msgptr1 c t _ _ => some (c, t)
  | .schip c t _ _ => some (c, t)
  | .skind c t _ _ => some (c, t)
  | .mkptr c t _ _ _ _ => some (c, t)
  | .mksptr c t _ _ => some (c, t)
  | .mkhnd c t _ _ => some (c, t)
  | .mkcode c t _ _ => some (c, t)
  | .imld c t _ _ => some (c, t)
  | .imst c t _ _ => some (c, t)
  | .ldS c t _ _ _ _ _ => some (c, t)
  | .stS c t _ _ _ _ _ => some (c, t)
  | .scinc c t _ _ _ => some (c, t)
  | .scincRel c t _ _ _ _ => some (c, t)
  | .scincR c t _ _ _ => some (c, t)
  | .scincRRel c t _ _ _ _ => some (c, t)
  | .waitGe c t _ _ _ _ => some (c, t)
  | .waitBg c t _ _ _ _ => some (c, t)
  | .rel c t _ _ => some (c, t)
  | .acq c t _ => some (c, t)
  | .barr c t _ _ _ => some (c, t)
  | .pace c t => some (c, t)
  | .send c t _ _ _ => some (c, t)
  | .done c t => some (c, t)
  | .open_ c t _ => some (c, t)
  | .close c t _ => some (c, t)
  | .dmago c t _ _ => some (c, t)
  | .dmaabort c t _ => some (c, t)
  | .tmma c t _ _ _ _ _ _ _ _ _ => some (c, t)
  | .tload c t _ _ _ _ _ _ _ => some (c, t)
  | .tstore c t _ _ _ _ _ _ _ => some (c, t)
  | .tmov c t _ _ _ _ _ _ => some (c, t)
  | .tmovv c t _ _ _ _ => some (c, t)
  | .tinit c t _ _ _ _ => some (c, t)
  | .trel c t _ => some (c, t)
  | .arel c t _ => some (c, t)
  | .vadd c t _ _ _ _ => some (c, t)
  | .vsub c t _ _ _ _ => some (c, t)
  | .vmul c t _ _ _ _ => some (c, t)
  | .vdiv c t _ _ _ _ => some (c, t)
  | .vsqrt c t _ _ _ => some (c, t)
  | .vmin c t _ _ _ => some (c, t)
  | .vmax c t _ _ _ => some (c, t)
  | .vminn c t _ _ _ => some (c, t)
  | .vmaxn c t _ _ _ => some (c, t)
  | .vceq c t _ _ _ => some (c, t)
  | .vclt c t _ _ _ => some (c, t)
  | .vcle c t _ _ _ => some (c, t)
  | .vneg c t _ _ => some (c, t)
  | .vabs c t _ _ => some (c, t)
  | .vcpys c t _ _ _ => some (c, t)
  | .vexp2 c t _ _ => some (c, t)
  | .vlog2 c t _ _ => some (c, t)
  | .vrcp c t _ _ => some (c, t)
  | .vrsq c t _ _ => some (c, t)
  | .vfma c t _ _ _ _ _ => some (c, t)
  | .vfms c t _ _ _ _ _ => some (c, t)
  | .vfnma c t _ _ _ _ _ => some (c, t)
  | .vfnms c t _ _ _ _ _ => some (c, t)
  | .viadd c t _ _ _ _ => some (c, t)
  | .visub c t _ _ _ _ => some (c, t)
  | .viadds c t _ _ _ _ => some (c, t)
  | .visubs c t _ _ _ _ => some (c, t)
  | .vimul c t _ _ _ _ => some (c, t)
  | .vimulh c t _ _ _ _ => some (c, t)
  | .vimin c t _ _ _ _ => some (c, t)
  | .vimax c t _ _ _ _ => some (c, t)
  | .viminu c t _ _ _ _ => some (c, t)
  | .vimaxu c t _ _ _ _ => some (c, t)
  | .vand c t _ _ _ _ => some (c, t)
  | .vor c t _ _ _ _ => some (c, t)
  | .vxor c t _ _ _ _ => some (c, t)
  | .vshl c t _ _ _ _ => some (c, t)
  | .vshr c t _ _ _ _ => some (c, t)
  | .vsra c t _ _ _ _ => some (c, t)
  | .viceq c t _ _ _ _ => some (c, t)
  | .viclt c t _ _ _ _ => some (c, t)
  | .vicltu c t _ _ _ _ => some (c, t)
  | .vbsl c t _ _ _ _ => some (c, t)
  | .viabs c t _ _ _ => some (c, t)
  | .vcvtDf16 c t _ _ _ _ _ => some (c, t)
  | .vcvtDf8 c t _ _ _ _ _ => some (c, t)
  | .vcvtFDf16 c t _ _ _ => some (c, t)
  | .vcvtFDf8 c t _ _ _ => some (c, t)
  | .vcvtI32 c t _ _ _ => some (c, t)
  | .vcvtFI32 c t _ _ _ => some (c, t)
  | .vcvtI32I16 c t _ _ _ => some (c, t)
  | .vcvtI16 c t _ _ _ => some (c, t)
  | .vcvtI32Di8 c t _ _ _ => some (c, t)
  | .vcvtDi8 c t _ _ _ => some (c, t)
  | .vqnt32 c t _ _ _ => some (c, t)
  | .vqnt64 c t _ _ _ _ => some (c, t)
  | .vdq32 c t _ _ _ _ => some (c, t)
  | .vdq64 c t _ _ _ _ _ => some (c, t)
  | .vgexp c t _ _ => some (c, t)
  | .vld c t _ _ => some (c, t)
  | .vlds c t _ _ _ => some (c, t)
  | .vst c t _ _ _ => some (c, t)
  | .vredRows c t _ _ _ _ _ => some (c, t)
  | .vperm c t _ _ _ => some (c, t)
  | .vrot c t _ _ _ => some (c, t)
  | .vbcl c t _ _ _ => some (c, t)
  | .vsplat c t _ _ _ => some (c, t)
  | .vzipl c t _ _ _ => some (c, t)
  | .vziph c t _ _ _ => some (c, t)
  | .vuzpe c t _ _ _ => some (c, t)
  | .vuzpo c t _ _ _ => some (c, t)
  | .vhaddF c t _ _ _ => some (c, t)
  | .vhmaxF c t _ _ => some (c, t)
  | .vhminF c t _ _ => some (c, t)
  | .vhaddI32 c t _ _ => some (c, t)
  | .vhmaxI32 c t _ _ => some (c, t)
  | .vhaddI64 c t _ _ => some (c, t)
  | .vrng c t _ _ => some (c, t)
  | .tmrWaitRead c t _ _ => some (c, t)
  | _ => none

end Sys2Proof.Machine
end

