-- ==== Sys2Proof/Certificates/Slice0/Obligations.lean ====
section
/-! DEFINITION. The statements for the provers. Each says what commands do on every state that meets its hypotheses; the docstring cites the rules of spec/ that it formalises. A statement that names `exec` answering `.next t` is also a completion statement, and since it gives the whole of t it is the frame of its commands. -/


section

open Sys2Proof Sys2Proof.Machine

/-! ## The step, the reset state and the registers -/

/-- One step takes the command at the front of the queue and runs it on the state with the rest of the queue. -/
def Obligations.StepRunsFront : Prop :=
  ∀ (c : Instr) (r : List Instr) (s : State), step { s with pending := c :: r } = exec c { s with pending := r }

/-- On an empty queue the block idles: one tick passes. The tick is the model's choice (log entry 1): without bring-up nothing moves; after it the TB takes its next value, and the fuses, the SPI NOR and the stacks do not change, nor, while no load is in progress, a register of a thread or a scratchpad. -/
def Obligations.IdleStepTicks : Prop :=
  ∀ (s : State), s.pending = [] →
    (s.brg.phase = 0 → step s = .next s) ∧
    (s.brg.phase ≠ 0 → ∃ s', step s = .next s' ∧ s'.tb = ((s.tb : Int) + 1 + (s.tbr.drift s.tb).slew).toNat % 2 ^ 64 ∧ s'.fuses = s.fuses ∧ s'.nor = s.nor ∧ s'.hbm = s.hbm ∧
      (s.hif.job ≠ 1 → ∀ (c : CoreId) (t : Thr) (r : Reg), (s'.coreAt c.val).spad = (s.coreAt c.val).spad ∧ s'.greg c t r = s.greg c t r))

/-- The reset state: nothing waits, no thread has a register, every scratchpad is empty, every core is held, and the block answers nothing (R19, R91, R96, R649). The values that the spec gives no reset for are the model's choice (log entries 15 and 16) and are not stated here. -/
def Obligations.ResetState : Prop :=
  State.reset.pending = [] ∧ State.reset.tb = 0 ∧ State.reset.memWf = true ∧ State.reset.chipLock = false ∧
    ∀ (c : CoreId) (t : Thr) (r : Reg),
      (State.reset.coreAt c.val).held = true ∧ (State.reset.coreAt c.val).lock = false ∧ (State.reset.coreAt c.val).spad = {} ∧
      (State.reset.thrOf c t).pc = 0 ∧ (State.reset.thrOf c t).ls0 = 0 ∧ (State.reset.thrOf c t).le0 = 0 ∧ (State.reset.thrOf c t).lc0 = 0 ∧
      (State.reset.thrOf c t).ls1 = 0 ∧ (State.reset.thrOf c t).le1 = 0 ∧ (State.reset.thrOf c t).lc1 = 0 ∧ (State.reset.thrOf c t).fsr = 0 ∧
      State.reset.greg c t r = if r = 0 then tint 0 else TWord.empty

/-- R94: g0 reads as INT 0, a write to g0 is discarded, and a write to another register is what that register then reads and changes no other. -/
def Obligations.RegisterFile : Prop :=
  ∀ (th : Thread) (w : TWord), th.reg 0 = tint 0 ∧ th.setReg 0 w = th ∧
    ∀ r q : Nat, r ≠ 0 → (th.setReg r w).reg r = w ∧ (q ≠ r → (th.setReg r w).reg q = th.reg q)

/-! ## Integer instructions -/

/-- The integer instructions of two INT operands, with the result that R99 and Table 3-7 give (CLZ, CTZ and POPC have one operand). -/
def Sys2Proof.Machine.intOps : List ((CoreId → Thr → Reg → Reg → Reg → Instr) × (Word → Word → Word)) :=
  [(.add, fun a b => a + b), (.sub, fun a b => a - b), (.and_, fun a b => a &&& b), (.or_, fun a b => a ||| b), (.xor, fun a b => a ^^^ b),
   (.shl, fun a b => a <<< (b.toNat % 64)), (.shr, fun a b => a >>> (b.toNat % 64)), (.sra, fun a b => a.sshiftRight (b.toNat % 64)),
   (.mul, fun a b => a * b),
   (.mulh, fun a b => ((a.signExtend 128 * b.signExtend 128) >>> 64).setWidth 64),
   (.mulhu, fun a b => ((a.setWidth 128 * b.setWidth 128) >>> 64).setWidth 64),
   (.div, fun a b => if b = 0 then -1 else a.sdiv b), (.divu, fun a b => if b = 0 then -1 else a / b),
   (.rem, fun a b => if b = 0 then a else a.srem b), (.remu, fun a b => if b = 0 then a else a % b),
   (.min_, fun a b => if a.toInt ≤ b.toInt then a else b), (.max_, fun a b => if a.toInt ≤ b.toInt then b else a),
   (.minu, fun a b => if a.toNat ≤ b.toNat then a else b), (.maxu, fun a b => if a.toNat ≤ b.toNat then b else a),
   (.ceq, fun a b => if a = b then 1 else 0), (.clt, fun a b => if a.toInt < b.toInt then 1 else 0),
   (.cltu, fun a b => if a.toNat < b.toNat then 1 else 0)]

/-- R97, R99, Table 3-7: each integer instruction of two operands, with both INT, writes INT of its result to rd and completes; nothing else changes. -/
def Sys2Proof.Claims.IntTwoOperands : Prop :=
  ∀ p ∈ intOps, ∀ (s : State) (c : CoreId) (t : Thr) (rd ra rb : Reg) (a b : Word), MayIssue s c t { writes := [rd.val] } →
    s.greg c t ra = tint a → s.greg c t rb = tint b → exec (p.1 c t rd ra rb) s = .next (s.wrote c t rd (tint (p.2 a b)))

/-- The integer instructions of one INT operand and an immediate (R97, R99): an immediate of ANDI, ORI and XORI is zero-extended, one of ADDI, CLTI and CLTUI sign-extended. -/
def Sys2Proof.Claims.IntImmediate : Prop :=
  ∀ (s : State) (c : CoreId) (t : Thr) (rd ra : Reg) (a : Word) (imm : BitVec 16) (amt : BitVec 6), MayIssue s c t { writes := [rd.val] } →
    s.greg c t ra = tint a →
      exec (.addi c t rd ra imm) s = .next (s.wrote c t rd (tint (a + imm.signExtend 64))) ∧
      exec (.andi c t rd ra imm) s = .next (s.wrote c t rd (tint (a &&& imm.setWidth 64))) ∧
      exec (.ori c t rd ra imm) s = .next (s.wrote c t rd (tint (a ||| imm.setWidth 64))) ∧
      exec (.xori c t rd ra imm) s = .next (s.wrote c t rd (tint (a ^^^ imm.setWidth 64))) ∧
      exec (.shli c t rd ra amt) s = .next (s.wrote c t rd (tint (a <<< amt.toNat))) ∧
      exec (.shri c t rd ra amt) s = .next (s.wrote c t rd (tint (a >>> amt.toNat))) ∧
      exec (.srai c t rd ra amt) s = .next (s.wrote c t rd (tint (a.sshiftRight amt.toNat))) ∧
      exec (.clti c t rd ra imm) s = .next (s.wrote c t rd (tint (if a.toInt < imm.toInt then 1 else 0))) ∧
      exec (.cltui c t rd ra imm) s = .next (s.wrote c t rd (tint (if a.toNat < (imm.signExtend 64).toNat then 1 else 0)))

/-- CLZ, CTZ and POPC: the count z that they deliver is the number of zero bits above the highest set bit, below the lowest set bit, and of set bits (Table 3-7). -/
def Sys2Proof.Claims.IntCounts : Prop :=
  ∀ (s : State) (c : CoreId) (t : Thr) (rd ra : Reg) (a : Word), MayIssue s c t { writes := [rd.val] } → s.greg c t ra = tint a →
    (∃ z : Nat, exec (.clz c t rd ra) s = .next (s.wrote c t rd (tint (BitVec.ofNat 64 z))) ∧ z ≤ 64 ∧
      (∀ i, 64 - z ≤ i → a.getLsbD i = false) ∧ (z < 64 → a.getLsbD (63 - z) = true)) ∧
    (∃ z : Nat, exec (.ctz c t rd ra) s = .next (s.wrote c t rd (tint (BitVec.ofNat 64 z))) ∧ z ≤ 64 ∧
      (∀ i, i < z → a.getLsbD i = false) ∧ (z < 64 → a.getLsbD z = true)) ∧
    exec (.popc c t rd ra) s = .next (s.wrote c t rd (tint (BitVec.ofNat 64 ((List.range 64).countP fun k => a.getLsbD k))))

/-- Integer instructions write INT of their result to rd, complete, and change nothing else: IntTwoOperands, IntImmediate and IntCounts together. -/
def Obligations.IntegerInstructions : Prop :=
  Sys2Proof.Claims.IntTwoOperands ∧ Sys2Proof.Claims.IntImmediate ∧ Sys2Proof.Claims.IntCounts

/-- R100: MOVI sets rd to the sign-extended immediate, and MOVK replaces one 16-bit field of rd and keeps the rest and the INT tag. -/
def Obligations.IntConstants : Prop :=
  let put (w : Word) (hw : Fin 4) (m : BitVec 16) : Word := (w &&& ~~~((0xFFFF : Word) <<< (16 * hw.val))) ||| (m.setWidth 64 <<< (16 * hw.val))
  (∀ (s : State) (c : CoreId) (t : Thr) (rd : Reg) (a : Word) (hw : Fin 4) (imm : BitVec 16) (imm21 : BitVec 21), MayIssue s c t { writes := [rd.val] } →
    exec (.movi c t rd imm21) s = .next (s.wrote c t rd (tint (imm21.signExtend 64))) ∧
    (s.greg c t rd = tint a → exec (.movk c t rd hw imm) s = .next (s.wrote c t rd (tint (put a hw imm))) ∧
      ∀ i, i < 64 → (put a hw imm).getLsbD i = if 16 * hw.val ≤ i ∧ i < 16 * hw.val + 16 then imm.getLsbD (i - 16 * hw.val) else a.getLsbD i)) ∧
  ∀ v : Word, ∃ (x : BitVec 21) (m1 m2 m3 : BitVec 16), v = put (put (put (x.signExtend 64) 1 m1) 2 m2) 3 m3

/-- R101: ADD, SUB and ADDI on a PTR move OFF, and on an SPTR the 48-bit offset, and keep every other field; a sum outside the field's range is the bounds fault, and nothing is written. -/
def Sys2Proof.Claims.PointerArithmetic : Prop :=
  ∀ (s : State) (c : CoreId) (t : Thr) (rd ra rb : Reg) (p n : Word) (imm : BitVec 16), MayIssue s c t { writes := [rd.val] } →
    (s.greg c t ra = ⟨p, .ptr⟩ → s.greg c t rb = tint n →
      (let o := ptrOff p + n.toInt
       if -2097152 ≤ o ∧ o ≤ 2097151
       then exec (.add c t rd ra rb) s = .next (s.wrote c t rd ⟨mkPtr (ptrR p) (ptrW p) (ptrLen p) (ptrBase p) o, .ptr⟩)
       else exec (.add c t rd ra rb) s = .next (s.faulted c t { code := 0x16, addr := Config.xaddrNoEa p n })) ∧
      (let o := ptrOff p - n.toInt
       if -2097152 ≤ o ∧ o ≤ 2097151
       then exec (.sub c t rd ra rb) s = .next (s.wrote c t rd ⟨mkPtr (ptrR p) (ptrW p) (ptrLen p) (ptrBase p) o, .ptr⟩)
       else exec (.sub c t rd ra rb) s = .next (s.faulted c t { code := 0x16, addr := Config.xaddrNoEa p n })) ∧
      (let o := ptrOff p + imm.toInt
       if -2097152 ≤ o ∧ o ≤ 2097151
       then exec (.addi c t rd ra imm) s = .next (s.wrote c t rd ⟨mkPtr (ptrR p) (ptrW p) (ptrLen p) (ptrBase p) o, .ptr⟩)
       else exec (.addi c t rd ra imm) s = .next (s.faulted c t { code := 0x16, addr := Config.xaddrNoEa p (imm.signExtend 64) }))) ∧
    (s.greg c t ra = ⟨p, .sptr⟩ → s.greg c t rb = tint n →
      (let o := (saOff p : Int) + n.toInt
       if 0 ≤ o ∧ o < 2 ^ 48
       then exec (.add c t rd ra rb) s = .next (s.wrote c t rd ⟨mkSa (saChip p) (saKind p) o.toNat, .sptr⟩)
       else exec (.add c t rd ra rb) s = .next (s.faulted c t { code := 0x16, addr := Config.xaddrNoEa p n })) ∧
      (let o := (saOff p : Int) - n.toInt
       if 0 ≤ o ∧ o < 2 ^ 48
       then exec (.sub c t rd ra rb) s = .next (s.wrote c t rd ⟨mkSa (saChip p) (saKind p) o.toNat, .sptr⟩)
       else exec (.sub c t rd ra rb) s = .next (s.faulted c t { code := 0x16, addr := Config.xaddrNoEa p n })) ∧
      (let o := (saOff p : Int) + imm.toInt
       if 0 ≤ o ∧ o < 2 ^ 48
       then exec (.addi c t rd ra imm) s = .next (s.wrote c t rd ⟨mkSa (saChip p) (saKind p) o.toNat, .sptr⟩)
       else exec (.addi c t rd ra imm) s = .next (s.faulted c t { code := 0x16, addr := Config.xaddrNoEa p (imm.signExtend 64) }))) ∧
    (s.greg c t ra = tint n → (s.greg c t rb = ⟨p, .ptr⟩ →
      (let o := ptrOff p + n.toInt
       if -2097152 ≤ o ∧ o ≤ 2097151
       then exec (.add c t rd ra rb) s = .next (s.wrote c t rd ⟨mkPtr (ptrR p) (ptrW p) (ptrLen p) (ptrBase p) o, .ptr⟩)
       else exec (.add c t rd ra rb) s = .next (s.faulted c t { code := 0x16, addr := Config.xaddrNoEa n p })) ∧
      exec (.sub c t rd ra rb) s = .next (s.faulted c t { code := 0x15, sub := 3 })))

/-- R83 to R85: an operand of the wrong tag is the tag fault with its tag as SUB, a POISON operand the poison consumed fault; the instruction writes nothing. -/
def Sys2Proof.Claims.IntOperandTags : Prop :=
  ∀ p ∈ intOps.drop 2, ∀ (s : State) (c : CoreId) (t : Thr) (rd ra rb : Reg) (a : Word), MayIssue s c t { writes := [rd.val] } →
    ((s.greg c t ra).tag ≠ .int → exec (p.1 c t rd ra rb) s = .next (s.faulted c t
      (if (s.greg c t ra).tag = .poison then { code := 0x18 } else { code := 0x15, sub := (s.greg c t ra).tag.toNat }))) ∧
    (s.greg c t ra = tint a → (s.greg c t rb).tag ≠ .int → exec (p.1 c t rd ra rb) s = .next (s.faulted c t
      (if (s.greg c t rb).tag = .poison then { code := 0x18 } else { code := 0x15, sub := (s.greg c t rb).tag.toNat })))

/-- ADD, SUB and ADDI on pointers, and the tag faults of integer operands: PointerArithmetic and IntOperandTags together. -/
def Obligations.PointersAndTags : Prop :=
  Sys2Proof.Claims.PointerArithmetic ∧ Sys2Proof.Claims.IntOperandTags

/-! ## Binary64 -/

/-- The result and exceptions of a binary64 instruction delivered to rd of thread t: the exceptions ORed into FSR.FLAGS, the result written, completion. -/
def Sys2Proof.Machine.State.delivered (s : State) (c : CoreId) (t : Thr) (rd : Reg) (r : TWord × Flags) : State :=
  s.retired c t fun k => (k.updThread t.val fun th => th.orFlags r.2).setReg t.val rd.val r.1

/-- R103: with no raised exception enabled in FSR.TE the result is delivered; with one enabled, the IEEE trap fault names the enabled exceptions raised, and nothing is written. -/
def Sys2Proof.Machine.Delivers (s : State) (c : CoreId) (t : Thr) (rd : Reg) (i : Instr) (r : TWord × Flags) : Prop :=
  ((s.thrOf c t).te &&& r.2 = 0 → exec i s = .next (s.delivered c t rd r)) ∧
  ((s.thrOf c t).te &&& r.2 ≠ 0 →
    exec i s = .next (s.faulted c t { code := 0x22, sub := ((s.thrOf c t).te &&& r.2).toNat, addr := pcWord (s.thrOf c t).pc }))

/-- Binary64 instructions of two FLT operands that round (Table 3-8). -/
def Sys2Proof.Machine.flt2R : List ((CoreId → Thr → Reg → Reg → Reg → BitVec 3 → Instr) × (Rnd → Nat → Nat → TWord × Flags)) :=
  [(.fadd, fun r a b => fltRes (b64.add r a b)), (.fsub, fun r a b => fltRes (b64.sub r a b)),
   (.fmul, fun r a b => fltRes (b64.mul r a b)), (.fdiv, fun r a b => fltRes (b64.div r a b))]

/-- Binary64 instructions of two FLT operands that do not round (Table 3-8). -/
def Sys2Proof.Machine.flt2 : List ((CoreId → Thr → Reg → Reg → Reg → Instr) × (Nat → Nat → TWord × Flags)) :=
  [(.frem, fun a b => fltRes (b64.rem a b)), (.fmin, fun a b => fltRes (b64.minimum a b)), (.fmax, fun a b => fltRes (b64.maximum a b)),
   (.fminn, fun a b => fltRes (b64.numForm b64.minimum a b)), (.fmaxn, fun a b => fltRes (b64.numForm b64.maximum a b)),
   (.feq, fun a b => cmpRes (b64.cmpEq a b)), (.flt, fun a b => cmpRes (b64.cmpLt a b)), (.fle, fun a b => cmpRes (b64.cmpLe a b)),
   (.fun, fun a b => cmpRes (b64.cmpUn a b)), (.fcpys, fun a b => fltRes (b64.copySign a b, fNone))]

/-- Binary64 instructions of one FLT operand that round, conversions among them (Tables 3-8, 3-10). -/
def Sys2Proof.Machine.flt1R : List ((CoreId → Thr → Reg → Reg → BitVec 3 → Instr) × (Rnd → Nat → TWord × Flags)) :=
  [(.fsqrt, fun r a => fltRes (b64.sqrt r a)), (.frint, fun r a => fltRes (b64.rint r false a)), (.frintx, fun r a => fltRes (b64.rint r true a)),
   (.fcvtI, fun r a => intRes (b64.toInt r (-9223372036854775808) 9223372036854775807 a)),
   (.fcvtU, fun r a => intRes (b64.toInt r 0 18446744073709551615 a)),
   (.fcvtS, fun r a => (traw (BitVec.ofNat 64 (b64.convert b32 r a).1), (b64.convert b32 r a).2))]

/-- Binary64 instructions of one FLT operand that do not round (Table 3-8). -/
def Sys2Proof.Machine.flt1 : List ((CoreId → Thr → Reg → Reg → Instr) × (Nat → TWord × Flags)) :=
  [(.fneg, fun a => fltRes (b64.neg a, fNone)), (.fabs, fun a => fltRes (b64.abs a, fNone)), (.flogb, fun a => intRes (logbInt a)),
   (.fnup, fun a => fltRes (b64.nextUp a)), (.fndn, fun a => fltRes (b64.nextDown a)),
   (.fclass, fun a => (tint (BitVec.ofNat 64 (2 ^ b64.classBit a)), fNone))]

/-- Binary64 instructions on FLT operands deliver their result under R103, with the rounding that rm or FSR.RM selects. -/
def Sys2Proof.Claims.FloatOperations : Prop :=
  ∀ (s : State) (c : CoreId) (t : Thr) (rd ra rb : Reg) (rm : BitVec 3) (r : Rnd) (a b : Word), MayIssue s c t { writes := [rd.val] } →
    (s.thrOf c t).rounding rm.toNat = some r → s.greg c t ra = tflt a →
    (s.greg c t rb = tflt b → (∀ p ∈ flt2R, Delivers s c t rd (p.1 c t rd ra rb rm) (p.2 r a.toNat b.toNat)) ∧
      (∀ p ∈ flt2, Delivers s c t rd (p.1 c t rd ra rb) (p.2 a.toNat b.toNat))) ∧
    (∀ p ∈ flt1R, Delivers s c t rd (p.1 c t rd ra rm) (p.2 r a.toNat)) ∧
    (∀ p ∈ flt1, Delivers s c t rd (p.1 c t rd ra) (p.2 a.toNat)) ∧
    (s.greg c t rb = tint b → Delivers s c t rd (.fscalb c t rd ra rb rm) (fltRes (b64.scaleB r a.toNat b.toInt)))

/-- R104: the fused group multiplies and adds with one rounding, the signs of the product and of the addend as fn selects. -/
def Sys2Proof.Claims.FloatFused : Prop :=
  ∀ (s : State) (c : CoreId) (t : Thr) (rd ra rb rc : Reg) (rm : BitVec 3) (r : Rnd) (a b d : Word), MayIssue s c t { writes := [rd.val] } →
    (s.thrOf c t).rounding rm.toNat = some r → s.greg c t ra = tflt a → s.greg c t rb = tflt b → s.greg c t rc = tflt d →
    Delivers s c t rd (.fma c t rd ra rb rc rm) (fltRes (b64.fma r false false a.toNat b.toNat d.toNat)) ∧
    Delivers s c t rd (.fms c t rd ra rb rc rm) (fltRes (b64.fma r false true a.toNat b.toNat d.toNat)) ∧
    Delivers s c t rd (.fnma c t rd ra rb rc rm) (fltRes (b64.fma r true false a.toNat b.toNat d.toNat)) ∧
    Delivers s c t rd (.fnms c t rd ra rb rc rm) (fltRes (b64.fma r true true a.toNat b.toNat d.toNat))

/-- Conversions from INT round once; SCVT.F widens the low 32 bits of a RAW or INT word and raises no flag (Tables 3-8, 3-10, R218). -/
def Sys2Proof.Claims.FloatConversions : Prop :=
  ∀ (s : State) (c : CoreId) (t : Thr) (rd ra : Reg) (rm : BitVec 3) (r : Rnd) (a : Word), MayIssue s c t { writes := [rd.val] } →
    (s.greg c t ra = tint a → (s.thrOf c t).rounding rm.toNat = some r →
      Delivers s c t rd (.icvtF c t rd ra rm) (fltRes (b64.ofInt r a.toInt)) ∧
      Delivers s c t rd (.ucvtF c t rd ra rm) (fltRes (b64.ofInt r (a.toNat : Int)))) ∧
    (s.greg c t ra = traw a ∨ s.greg c t ra = tint a →
      exec (.scvtF c t rd ra) s = .next (s.wrote c t rd (tflt (BitVec.ofNat 64 (b32.convert b64 .ties (a.toNat % 2 ^ 32)).1))))

/-- Table 3-9: an rm field of 5 or 6, or of 7 with FSR.RM of 5 to 7, makes a rounding instruction illegal: the illegal instruction fault at its address. -/
def Sys2Proof.Claims.FloatRoundingIllegal : Prop :=
  ∀ (s : State) (c : CoreId) (t : Thr) (rd ra rb : Reg) (rm : BitVec 3), MayIssue s c t { writes := [rd.val] } →
    (rm = 5 ∨ rm = 6 ∨ (rm = 7 ∧ 5 ≤ (s.thrOf c t).rm)) →
    (∀ p ∈ flt2R, exec (p.1 c t rd ra rb rm) s = .next (s.faulted c t { code := 0x10, addr := pcWord (s.thrOf c t).pc })) ∧
    (∀ p ∈ flt1R, exec (p.1 c t rd ra rm) s = .next (s.faulted c t { code := 0x10, addr := pcWord (s.thrOf c t).pc }))

/-- What the comparisons answer and raise (R102, Table 3-8): FLT and FLE raise NV on any NaN and answer 0, FEQ and FUN only on a signalling one; FUN answers 1 exactly when an operand is a NaN; no comparison raises anything else. -/
def Sys2Proof.Claims.FloatComparisons : Prop :=
  ∀ (x y : Nat), x < 2 ^ 64 → y < 2 ^ 64 →
    (b64.cmpUn x y).1 = (b64.isNan x || b64.isNan y) ∧
    (b64.cmpUn x y).2 = (if b64.isSnan x || b64.isSnan y then fNV else fNone) ∧
    (b64.cmpEq x y).2 = (if b64.isSnan x || b64.isSnan y then fNV else fNone) ∧
    (b64.cmpLt x y).2 = (if b64.isNan x || b64.isNan y then fNV else fNone) ∧
    (b64.cmpLe x y).2 = (if b64.isNan x || b64.isNan y then fNV else fNone) ∧
    (b64.isNan x || b64.isNan y → (b64.cmpEq x y).1 = false ∧ (b64.cmpLt x y).1 = false ∧ (b64.cmpLe x y).1 = false) ∧
    (b64.isNan x = false → b64.isNan y = false →
      ((b64.cmpLt x y).1 = true → (b64.cmpLt y x).1 = false) ∧ ((b64.cmpLe x y).1 = !(b64.cmpLt y x).1) ∧
      ((b64.cmpEq x y).1 = (!(b64.cmpLt x y).1 && !(b64.cmpLt y x).1)))

/-- Binary64 instructions: results, one rounding, flags, traps, and illegal rounding fields: FloatOperations, FloatFused, FloatConversions, FloatRoundingIllegal and FloatComparisons together. -/
def Obligations.BinaryFloat : Prop :=
  Sys2Proof.Claims.FloatOperations ∧ Sys2Proof.Claims.FloatFused ∧ Sys2Proof.Claims.FloatConversions ∧ Sys2Proof.Claims.FloatRoundingIllegal ∧ Sys2Proof.Claims.FloatComparisons

/-! ## Loads, stores and copies -/

/-- The narrow loads with their size, and the displacement as it is encoded (R106, R107). -/
def Sys2Proof.Machine.loadForms (c : CoreId) (t : Thr) (rd ra : Reg) (d16 : BitVec 16) (d15 : BitVec 15) (d13 : BitVec 13) (sz : BitVec 2) (sx : Bool) :
    List (Instr × LdKind × Int) :=
  [(.ld c t rd ra d16, .word, d16.toInt), (.ldI c t rd ra d16, .int, d16.toInt), (.ldF c t rd ra d16, .flt, d16.toInt),
   (.ldP c t rd ra d15, .ptr, d15.toInt), (.ldH c t rd ra d15, .hnd, d15.toInt), (.lds c t rd ra sz sx d13, .part sz.toNat sx, d13.toInt)]

/-- R106, R107: a load through a PTR that may be read, at an aligned address in bounds and with no conflicting range held, delivers the word that holds the address by the rule of its form, or the tag fault; LDS with sz = 3 is illegal. -/
def Sys2Proof.Claims.Loads : Prop :=
  ∀ (s : State) (c : CoreId) (t : Thr) (rd ra : Reg) (d16 : BitVec 16) (d15 : BitVec 15) (d13 : BitVec 13) (sz : BitVec 2) (sx : Bool) (p : Word),
    MayIssue s c t { writes := [rd.val] } → s.greg c t ra = ⟨p, .ptr⟩ → sz ≠ 3 →
    ∀ x ∈ loadForms c t rd ra d16 d15 d13 sz sx,
      let ea := ptrAddr p + x.2.2
      ea % (x.2.1.size : Int) = 0 → ptrR p = true → (ptrBase p : Int) ≤ ea → ea + x.2.1.size ≤ (ptrBase p : Int) + ptrLen p →
      (s.coreAt c.val).conflict true ea.toNat x.2.1.size false = false →
      match loadResult x.2.1 ((s.coreAt c.val).spad.word (ea.toNat / 8 * 8)) ea.toNat with
      | .ok w => exec x.1 s = .next (s.wrote c t rd w)
      | .error ev => exec x.1 s = .next (s.faulted c t ev)

/-- R107: what each load makes of the tag of the word: LD takes any but EMPTY, LD.I an INT or RAW word as INT, LD.F an FLT or RAW word as FLT, LD.P and LD.H their own tag only, LDS an INT or RAW word as INT; each but an EMPTY word's load carries POISON on; anything else is the tag fault with the tag as SUB. -/
def Sys2Proof.Claims.LoadTags : Prop :=
  ∀ (w : TWord) (ea : Nat), ea % 8 = 0 →
    let bad : Ev := { code := 0x15, sub := w.tag.toNat, addr := BitVec.ofNat 64 ea }
    (loadResult .word w ea = if w.tag = .empty then .error bad else .ok w) ∧
    (loadResult .int w ea = if w.tag = .int ∨ w.tag = .raw then .ok (tint w.val) else if w.tag = .poison then .ok w else .error bad) ∧
    (loadResult .flt w ea = if w.tag = .flt ∨ w.tag = .raw then .ok (tflt w.val) else if w.tag = .poison then .ok w else .error bad) ∧
    (loadResult .ptr w ea = if w.tag = .ptr ∨ w.tag = .poison then .ok w else .error bad) ∧
    (loadResult .hnd w ea = if w.tag = .hnd ∨ w.tag = .poison then .ok w else .error bad) ∧
    (w.tag = .int ∨ w.tag = .raw →
      loadResult (.part 0 false) w ea = .ok (tint ((w.val.setWidth 8).setWidth 64)) ∧ loadResult (.part 0 true) w ea = .ok (tint ((w.val.setWidth 8).signExtend 64)) ∧
      loadResult (.part 1 false) w ea = .ok (tint ((w.val.setWidth 16).setWidth 64)) ∧ loadResult (.part 1 true) w ea = .ok (tint ((w.val.setWidth 16).signExtend 64)) ∧
      loadResult (.part 2 false) w ea = .ok (tint ((w.val.setWidth 32).setWidth 64)) ∧ loadResult (.part 2 true) w ea = .ok (tint ((w.val.setWidth 32).signExtend 64)))

/-- R98, R106: a load at a misaligned address is the alignment fault, whatever the permission; an aligned one without R permission or outside the bounds is the bounds fault; XADDR is the address. -/
def Sys2Proof.Claims.LoadAddressFaults : Prop :=
  ∀ (s : State) (c : CoreId) (t : Thr) (rd ra : Reg) (d16 : BitVec 16) (d15 : BitVec 15) (d13 : BitVec 13) (sz : BitVec 2) (sx : Bool) (p : Word),
    MayIssue s c t { writes := [rd.val] } → s.greg c t ra = ⟨p, .ptr⟩ → sz ≠ 3 →
    ∀ x ∈ loadForms c t rd ra d16 d15 d13 sz sx,
      let ea := ptrAddr p + x.2.2
      (ea % (x.2.1.size : Int) ≠ 0 → exec x.1 s = .next (s.faulted c t { code := 0x17, addr := BitVec.ofInt 64 ea })) ∧
      (ea % (x.2.1.size : Int) = 0 → (ptrR p = false ∨ ea < (ptrBase p : Int) ∨ (ptrBase p : Int) + ptrLen p < ea + x.2.1.size) →
        exec x.1 s = .next (s.faulted c t { code := 0x16, addr := BitVec.ofInt 64 ea }))

/-- R66, R68: a load whose bytes an earlier access conflicts with puts its thread in WAIT with cause 0x05 and does not count as issued; TRK.CONFL counts the wait, and the access keeps its place in issue order (R69). -/
def Sys2Proof.Claims.LoadConflict : Prop :=
  ∀ (s : State) (c : CoreId) (t : Thr) (rd ra : Reg) (d16 : BitVec 16) (p : Word),
    MayIssue s c t { writes := [rd.val] } → s.greg c t ra = ⟨p, .ptr⟩ →
    let ea := ptrAddr p + d16.toInt
    ea % 8 = 0 → ptrR p = true → (ptrBase p : Int) ≤ ea → ea + 8 ≤ (ptrBase p : Int) + ptrLen p →
    (s.coreAt c.val).conflict true ea.toNat 8 false = true →
    exec (.ld c t rd ra d16) s = .next (s.after c fun k => (k.countConfl.takePlace t.val true ea.toNat 8 false).updThread t.val fun th =>
      { th with st := .wait, wcause := .conflict, waitOp := some (.load .word rd.val ra.val d16.toInt) })

/-- Loads: the value and tag delivered, alignment and bounds faults, and waiting for a held range: Loads, LoadTags, LoadAddressFaults and LoadConflict together. -/
def Obligations.LoadInstructions : Prop :=
  Sys2Proof.Claims.Loads ∧ Sys2Proof.Claims.LoadTags ∧ Sys2Proof.Claims.LoadAddressFaults ∧ Sys2Proof.Claims.LoadConflict

/-- R108: ST writes the 64 bits and the tag of rd, and STS the low bytes of rd and the tag RAW, at the address ea; the tag of the stored word and the bytes at ea are all that changes in the core beside the thread's own progress. STS into a word tagged FLT, PTR, SPTR, HND, CODE or POISON is the tag fault. -/
def Sys2Proof.Claims.Stores : Prop :=
  ∀ (s : State) (c : CoreId) (t : Thr) (rd ra : Reg) (d16 : BitVec 16) (d13 : BitVec 13) (sz : BitVec 2) (p : Word), MayIssue s c t {} →
    s.greg c t ra = ⟨p, .ptr⟩ → ptrW p = true →
    (let ea := ptrAddr p + d16.toInt
     ea % 8 = 0 → (ptrBase p : Int) ≤ ea → ea + 8 ≤ (ptrBase p : Int) + ptrLen p → (s.coreAt c.val).conflict true ea.toNat 8 true = false →
     (s.greg c t rd).tag ≠ .empty →
     exec (.st c t rd ra d16) s = .next (s.retired c t fun k => { k with spad := k.spad.setWord ea.toNat (s.greg c t rd) })) ∧
    (let ea := ptrAddr p + d13.toInt
     let n : Nat := 2 ^ sz.toNat
     ea % (n : Int) = 0 → (ptrBase p : Int) ≤ ea → ea + n ≤ (ptrBase p : Int) + ptrLen p → (s.coreAt c.val).conflict true ea.toNat n true = false →
     sz ≠ 3 → (s.greg c t rd).tag = .int ∨ (s.greg c t rd).tag = .raw →
     let old := (s.coreAt c.val).spad.tagAt ea.toNat
     (old = .raw ∨ old = .int ∨ old = .empty →
       exec (.sts c t rd ra sz d13) s = .next (s.retired c t fun k => { k with spad := k.spad.setPart ea.toNat n (s.greg c t rd).val.toNat })) ∧
     (¬(old = .raw ∨ old = .int ∨ old = .empty) →
       exec (.sts c t rd ra sz d13) s = .next (s.faulted c t { code := 0x15, sub := old.toNat, addr := BitVec.ofNat 64 ea.toNat })))

/-- What ST and STS change in a scratchpad (R108): exactly the bytes at the address and the tag of their word; a word stored, which is never EMPTY, is the word then read, and a part stored leaves its word RAW. -/
def Sys2Proof.Claims.StoreFrame : Prop :=
  ∀ (sp : Spad) (a b n v : Nat) (w : TWord), sp.bytes.wf = true →
    (a % 8 = 0 → w.tag ≠ .empty → (sp.setWord a w).word a = w) ∧ (sp.setPart a n v).tagAt a = .raw ∧
    ((b < a ∨ a + 8 ≤ b) → rdByte (sp.setWord a w).bytes b = rdByte sp.bytes b) ∧
    ((b < a ∨ a + n ≤ b) → rdByte (sp.setPart a n v).bytes b = rdByte sp.bytes b) ∧
    rdNat (sp.setPart a n v).bytes a n = v % 256 ^ n ∧
    (b / 8 ≠ a / 8 → (sp.setWord a w).tagAt b = sp.tagAt b ∧ (sp.setPart a n v).tagAt b = sp.tagAt b) ∧
    (sp.setWord a w).bytes.wf = true ∧ (sp.setPart a n v).bytes.wf = true

/-- R110: BMOV checks its three operands, takes a read entry and a write entry of the tracker and goes on block by block; a count of zero completes at once; a block that the tracker lets run copies the bytes up to the next 128-byte boundary of the destination and moves both pointers and the count; the last one completes the instruction and releases both entries, an earlier one narrows them to what remains (R67), or takes a HALT that is pending (R44); the rings settle when entries change (R195). -/
def Sys2Proof.Claims.BlockMove : Prop :=
  ∀ (s : State) (c : CoreId) (t : Thr) (rd ra rb : Reg) (d a n : Nat),
    (MayIssue s c t { writes := [rd.val, ra.val, rb.val] } → bmovCheck (s.thrOf c t) rd.val ra.val rb.val = .ok (d, a, n) →
      (n = 0 → exec (.bmov c t rd ra rb) s = .next (s.retired c t id)) ∧
      (n ≠ 0 → 2 ≤ (s.coreAt c.val).trkFree → exec (.bmov c t rd ra rb) s = .next (s.after c fun k =>
        let x := k.trkTake true a n false
        let y := x.1.trkTake true d n true
        y.1.updThread t.val fun th => { th.count with bmov := some { rd := rd.val, ra := ra.val, rb := rb.val, rdEnt := x.2, wrEnt := y.2 }
                                                      st := .run, wcause := .none, waitOp := none }))) ∧
    (∀ (b : Bmov) (sp : Spad), (s.coreAt c.val).held = false → (s.thrOf c t).st = .run → (s.thrOf c t).bmov = some b →
      (s.coreAt c.val).entConflict b.rdEnt = false → (s.coreAt c.val).entConflict b.wrEnt = false →
      bmovCheck (s.thrOf c t) b.rd b.ra b.rb = .ok (d, a, n) → copyBlock (s.coreAt c.val).spad a d (min n (128 - d % 128)) = .ok sp →
      let m := min n (128 - d % 128)
      let moved (k : Core) : Core := { k with spad := sp }.updThread t.val fun th =>
        let ptr (r : Nat) : TWord := ⟨mkPtr (ptrR (th.reg r).val) (ptrW (th.reg r).val) (ptrLen (th.reg r).val) (ptrBase (th.reg r).val) (ptrOff (th.reg r).val + m), .ptr⟩
        ((th.setReg b.rd (ptr b.rd)).setReg b.ra (ptr b.ra)).setReg b.rb (tint (BitVec.ofNat 64 (n - m)))
      let released (k : Core) : Core := (k.trkDrop b.rdEnt).trkDrop b.wrEnt
      let goes (f : Core → Core) : Prop := exec (.bmovBlock c t) s = .next (s.onCore c.val fun e k => k.settleAfter e (f k, []))
      (n ≤ 128 - d % 128 → goes fun k => (released (moved k)).updThread t.val fun th => th.ran.advance.boundary) ∧
      (128 - d % 128 < n → (s.thrOf c t).haltPend = true → (s.thrOf c t).slot = none → (s.thrOf c t).shadow = false →
        goes fun k => (released (moved k)).updThread t.val fun th => { th with st := .halt, haltPend := false, bmov := none }) ∧
      (128 - d % 128 < n → ((s.thrOf c t).haltPend = false ∨ (s.thrOf c t).slot ≠ none ∨ (s.thrOf c t).shadow = true) →
        goes fun k => (((moved k).trkNarrow b.rdEnt (a + m) (n - m)).trkNarrow b.wrEnt (d + m) (n - m)).updThread t.val fun th =>
          { th with bmov := some { b with waited := false } }))

/-- Stores and BMOV: exactly the bytes stored change, and what a block move starts: Stores, StoreFrame and BlockMove together. -/
def Obligations.StoreInstructions : Prop :=
  Sys2Proof.Claims.Stores ∧ Sys2Proof.Claims.StoreFrame ∧ Sys2Proof.Claims.BlockMove

/-- IN of an offset that the mode may read, at an 8-aligned offset of the I/O space, delivers INT of the register's value; OUT writes the register (R71 to R73, R116). -/
def Sys2Proof.Claims.InOut : Prop :=
  ∀ (s : State) (c : CoreId) (t : Thr) (rd ra : Reg) (imm : BitVec 16) (a : Word) (off : Nat), s.greg c t ra = tint a →
    a.toInt + imm.toInt = (off : Int) → off < 65536 → off % 8 = 0 →
    (MayIssue s c t { writes := [rd.val] } → (s.thrOf c t).smode = true ∨ uReadDenied off = false → ¬(off = 0x2A80 + 8 * t.val ∧ (s.thrOf c t).tmrEn = true) →
      exec (.in_ c t rd ra imm) s = .next (s.retired c t fun k =>
        let r := ioRead (s.env c.val) k (some t.val) off
        r.1.setReg t.val rd.val (tint r.2))) ∧
    (MayIssue s c t { writes := [rd.val] } → (s.thrOf c t).smode = false → uReadDenied off = true →
      exec (.in_ c t rd ra imm) s = .next (s.faulted c t { code := 0x11, addr := BitVec.ofNat 64 off })) ∧
    (MayIssue s c t {} → (s.thrOf c t).smode = true ∨ uWriteDenied (s.env c.val).vcore t.val off = false → (s.greg c t rd).tag ≠ .empty →
      (s.greg c t rd).tag ≠ .poison → outHeld (s.env c.val) (s.coreAt c.val) off = false →
      exec (.out c t rd ra imm) s = .next
        (let r := ioWrite (s.env c.val) (s.coreAt c.val) (some t.val) off (s.greg c t rd).val
         (s.after c fun _ => r.1.retire t.val).applyEmits c.val r.2)) ∧
    (MayIssue s c t {} → (s.thrOf c t).smode = false → uWriteDenied (s.env c.val).vcore t.val off = true →
      exec (.out c t rd ra imm) s = .next (s.faulted c t { code := 0x11, addr := BitVec.ofNat 64 off }))

/-- R534: an IN of TMR.n.WAIT by thread n answers TB when its compare is not armed, and else waits with cause 0x07. -/
def Sys2Proof.Claims.TimerWaitRead : Prop :=
  ∀ (s : State) (c : CoreId) (t : Thr) (rd : Reg), MayIssue s c t { writes := [rd.val] } → (s.thrOf c t).smode = true →
    ((s.thrOf c t).tmrEn = false → exec (.tmrWaitRead c t rd t) s = .next (s.wrote c t rd (tint (BitVec.ofNat 64 s.tb)))) ∧
    ((s.thrOf c t).tmrEn = true → exec (.tmrWaitRead c t rd t) s = .next (s.after c fun k =>
      k.updThread t.val fun th => { th.count with st := .wait, wcause := .timer, waitOp := some (.timer rd.val) }))

/-- R114, R115: an LD.S of a system address outside the core sends a read and waits with cause 0x01; an ST.S there posts a write and completes. Each holds a tracker entry for its range. -/
def Sys2Proof.Claims.FarAccesses : Prop :=
  ∀ (s : State) (c : CoreId) (t : Thr) (rd ra : Reg) (sz ty : BitVec 2) (disp : BitVec 12) (a : Word) (v : TWord),
    (s.env c.val).localOff a = none → 1 ≤ (s.coreAt c.val).trkFree →
    let na := (s.env c.val).normChip a
    let i := (s.coreAt c.val).trk.next
    let x := (s.coreAt c.val).xid
    (∀ l ∈ (s.coreAt c.val).trk.ents, l.id < i) →
    (MayIssue s c t { writes := [rd.val] } → farIllegal false sz.toNat ty.toNat = false →
      farCheck (s.env c.val) (s.thrOf c t) false rd.val ra.val sz.toNat disp.toInt = .ok (a, v) →
      (s.coreAt c.val).conflict false na.toNat (2 ^ sz.toNat) false = false →
      exec (.ldS c t rd ra sz ty disp) s = .next ((s.after c fun k =>
        ({ (k.trkTake false na.toNat (2 ^ sz.toNat) false).1 with xid := k.xid + 1 } : Core).updThread t.val fun th =>
          { th.count with st := .wait, wcause := .farLoad, waitOp := some (.farData rd.val sz.toNat ty.toNat na x i) }).applyEmits c.val
        [.svc na x (.read na (2 ^ sz.toNat))])) ∧
    (MayIssue s c t {} → farIllegal true sz.toNat ty.toNat = false →
      farCheck (s.env c.val) (s.thrOf c t) true rd.val ra.val sz.toNat disp.toInt = .ok (a, v) →
      (s.coreAt c.val).conflict false na.toNat (2 ^ sz.toNat) true = false →
      exec (.stS c t rd ra sz ty disp) s = .next ((s.after c fun k =>
        ({ (k.trkTake false na.toNat (2 ^ sz.toNat) true).1 with xid := k.xid + 1, writes := k.writes ++
            [{ xid := x, issuer := t.val, scope := (s.env c.val).scopeOf na, addr := na, trk := some i }] } : Core).retire t.val).applyEmits c.val
        [.svc na x (.write na (leBytes (2 ^ sz.toNat) v.val.toNat) (if v.tag = .poison then [0] else []) true (if sz = 3 then v.tag else .raw))]))

/-- R117: IMLD answers INT of the instruction word, or POISON of a marked one; IMST writes the word and clears its mark. Both take a 4-aligned INT below 0x1_0000 and ignore the NX map. -/
def Sys2Proof.Claims.InstructionMemory : Prop :=
  ∀ (s : State) (c : CoreId) (t : Thr) (rd ra rb : Reg) (a b : Word), s.greg c t ra = tint a → a.toNat % 4 = 0 → a.toNat < 65536 →
    (MayIssue s c t { writes := [rd.val], priv := true } →
      exec (.imld c t rd ra) s = .next (s.wrote c t rd
        ⟨(mget imemWiped (s.coreAt c.val).imem (a.toNat / 4)).setWidth 64, if mget false (s.coreAt c.val).imark (a.toNat / 4) then .poison else .int⟩)) ∧
    (MayIssue s c t { priv := true } → s.greg c t rb = tint b ∨ s.greg c t rb = traw b →
      exec (.imst c t ra rb) s = .next (s.retired c t fun k =>
        { k with imem := cset imemWiped k.imem (a.toNat / 4) (b.setWidth 32), imark := cset false k.imark (a.toNat / 4) false }))

/-- IN, OUT, far loads and stores, and the instruction memory: InOut, TimerWaitRead, FarAccesses and InstructionMemory together. -/
def Obligations.OtherAccesses : Prop :=
  Sys2Proof.Claims.InOut ∧ Sys2Proof.Claims.TimerWaitRead ∧ Sys2Proof.Claims.FarAccesses ∧ Sys2Proof.Claims.InstructionMemory

/-! ## Sequence, branches and loops -/

/-- R118, R122: the next address. After the delay slot of a taken branch it is the branch's target. Otherwise, at the LE of level 1 with LC above zero, LC falls by one and control goes to LS while it is still above zero; then the same at level 0; otherwise execution goes on at the next word, past 0xFFFC at 0 (R79). -/
def Sys2Proof.Claims.Sequence : Prop :=
  ∀ th : Thread,
    (∀ b tgt r, th.slot = some ⟨b, some tgt, r⟩ → th.advance = { th with pc := tgt, slot := none, shadow := false }) ∧
    ((∀ b tgt r, th.slot ≠ some ⟨b, some tgt, r⟩) →
      (1 < th.lc1.toInt → th.pc = th.le1 → th.advance = { th with pc := th.ls1, lc1 := th.lc1 - 1, slot := none, shadow := false }) ∧
      (¬(0 < th.lc1.toInt ∧ th.pc = th.le1) → 1 < th.lc0.toInt → th.pc = th.le0 →
        th.advance = { th with pc := th.ls0, lc0 := th.lc0 - 1, slot := none, shadow := false }) ∧
      (¬(0 < th.lc1.toInt ∧ th.pc = th.le1) → ¬(0 < th.lc0.toInt ∧ th.pc = th.le0) →
        th.advance = { th with pc := th.pc + 4, slot := none, shadow := false }) ∧
      (¬(0 < th.lc1.toInt ∧ th.pc = th.le1) → th.lc0 = 1 → th.pc = th.le0 →
        th.advance = { th with pc := th.pc + 4, lc0 := 0, slot := none, shadow := false }) ∧
      (th.lc1 = 1 → th.pc = th.le1 → ¬(0 < th.lc0.toInt ∧ th.pc = th.le0) →
        th.advance = { th with pc := th.pc + 4, lc1 := 0, slot := none, shadow := false }) ∧
      (th.lc1 = 1 → th.pc = th.le1 → 1 < th.lc0.toInt → th.pc = th.le0 →
        th.advance = { th with pc := th.ls0, lc1 := 0, lc0 := th.lc0 - 1, slot := none, shadow := false }) ∧
      (th.lc1 = 1 → th.lc0 = 1 → th.pc = th.le1 → th.pc = th.le0 →
        th.advance = { th with pc := th.pc + 4, lc1 := 0, lc0 := 0, slot := none, shadow := false }))

/-- A branch that has issued: its delay slot is next, and after it the target when the branch is taken (R118). -/
def Sys2Proof.Machine.State.branched (s : State) (c : CoreId) (t : Thr) (link : Option (Reg × TWord)) (target : Option (BitVec 16)) (reads : Option Nat) : State :=
  s.after c fun k =>
    let k1 := match link with | some (rd, w) => k.setReg t.val rd.val w | none => k
    k1.updThread t.val fun th => { th.count.ran with pc := (s.thrOf c t).pc + 4, slot := some ⟨(s.thrOf c t).pc, target, reads⟩, shadow := false }

/-- R119: Bcc tests INT ra against zero by its condition, 0 equal, 1 not equal, 2 less, 3 not less, 4 not greater, 5 greater and 6 always, and branches to its address + 4 × the offset; condition 7 is illegal. -/
def Obligations.ConditionalBranch : Prop :=
  ∀ (s : State) (c : CoreId) (t : Thr) (ra : Reg) (o18 : BitVec 18) (a : Word), s.greg c t ra = tint a → let pc := (s.thrOf c t).pc
    let goes (b : Bool) : Out := .next (s.branched c t none (if b then some (pc + BitVec.ofInt 16 (4 * o18.toInt)) else none) (some ra.val))
    (MayIssue s c t { noSlot := true, loopEnd := true, branch := true } →
      exec (.bcc c t ra 0 o18) s = goes (decide (a.toInt = 0)) ∧ exec (.bcc c t ra 1 o18) s = goes (decide (a.toInt ≠ 0)) ∧
      exec (.bcc c t ra 2 o18) s = goes (decide (a.toInt < 0)) ∧ exec (.bcc c t ra 3 o18) s = goes (decide (0 ≤ a.toInt)) ∧
      exec (.bcc c t ra 4 o18) s = goes (decide (a.toInt ≤ 0)) ∧ exec (.bcc c t ra 5 o18) s = goes (decide (0 < a.toInt)) ∧
      exec (.bcc c t ra 6 o18) s = goes true) ∧
    (MayIssue s c t {} → exec (.bcc c t ra 7 o18) s = .next (s.faulted c t { code := 0x10, addr := pcWord pc }))

/-- R118, R120: JAL and JALR write CODE of their address + 8 and go to the target, which for JALR is the address in ra, read before rd is written; a JALR target that is not 4-aligned is the alignment fault, and one outside 0 to 0xFFFC the bounds fault; each has one delay slot. -/
def Sys2Proof.Claims.Branches : Prop :=
  ∀ (s : State) (c : CoreId) (t : Thr) (rd ra : Reg) (o21 : BitVec 21) (a : Word),
    let pc := (s.thrOf c t).pc
    (MayIssue s c t { writes := [rd.val], noSlot := true, loopEnd := true, branch := true } →
      exec (.jal c t rd o21) s = .next (s.branched c t (some (rd, ⟨(pc + 8).setWidth 64, .code⟩)) (some (pc + BitVec.ofInt 16 (4 * o21.toInt))) none)) ∧
    (MayIssue s c t { writes := [rd.val], noSlot := true, loopEnd := true, branch := true } →
      (s.greg c t ra = tint a ∨ s.greg c t ra = ⟨a, .code⟩) →
      (a.toNat % 4 = 0 → a.toNat < 65536 → exec (.jalr c t rd ra) s =
        .next (s.branched c t (some (rd, ⟨(pc + 8).setWidth 64, .code⟩)) (some (a.setWidth 16)) (some ra.val))) ∧
      (a.toNat % 4 ≠ 0 → exec (.jalr c t rd ra) s = .next (s.faulted c t { code := 0x17, addr := a })) ∧
      (a.toNat % 4 = 0 → 65536 ≤ a.toNat → exec (.jalr c t rd ra) s = .next (s.faulted c t { code := 0x16, addr := a })))

/-- R121: LOOP sets LS, LE and LC of its level; with a count above zero the body follows, else LC is zero and the body is skipped. -/
def Sys2Proof.Claims.Loops : Prop :=
  ∀ (s : State) (c : CoreId) (t : Thr) (ra : Reg) (imm : BitVec 13) (n : Word), MayIssue s c t { noSlot := true, loopEnd := true } →
    imm ≠ 0 → s.greg c t ra = tint n →
    let pc := (s.thrOf c t).pc
    let le := pc + 4 * imm.setWidth 16
    (0 < n.toInt →
      exec (.loop c t true ra imm) s = .next (s.after c fun k => k.updThread t.val fun th =>
        ({ th.count.ran with ls1 := pc + 4, le1 := le, lc1 := n, pc := pc + 4, slot := none, shadow := false } : Thread).boundary) ∧
      exec (.loop c t false ra imm) s = .next (s.after c fun k => k.updThread t.val fun th =>
        ({ th.count.ran with ls0 := pc + 4, le0 := le, lc0 := n, pc := pc + 4, slot := none, shadow := false } : Thread).boundary)) ∧
    (n.toInt ≤ 0 →
      exec (.loop c t true ra imm) s = .next (s.after c fun k => k.updThread t.val fun th =>
        ({ th.count.ran with ls1 := pc + 4, le1 := le, lc1 := 0, pc := le + 4, slot := none, shadow := false } : Thread).boundary) ∧
      exec (.loop c t false ra imm) s = .next (s.after c fun k => k.updThread t.val fun th =>
        ({ th.count.ran with ls0 := pc + 4, le0 := le, lc0 := 0, pc := le + 4, slot := none, shadow := false } : Thread).boundary))

/-- The next address: delay slots, JAL and JALR, loop-back and LOOP: Sequence, Branches and Loops together. -/
def Obligations.ControlFlow : Prop :=
  Sys2Proof.Claims.Sequence ∧ Sys2Proof.Claims.Branches ∧ Sys2Proof.Claims.Loops

/-- R97, R149, R155: a Bcc with cond 7, a LOOP with imm13 of 0, an MFT or MTT of a selector above 6, an LDS or STS with sz 3, and any of Bcc, JAL, JALR, LOOP, SETM, SYSC, TRAP, SYSRET, RETX and RETD in a delay slot is the illegal instruction fault, which names the branch of a delay slot as the return address; a branch or LOOP at the LE of a level with LC above zero is the loop violation fault with the level as SUB. -/
def Sys2Proof.Claims.IllegalForms : Prop :=
  ∀ (s : State) (c : CoreId) (t : Thr) (rd ra : Reg) (o18 : BitVec 18) (o21 : BitVec 21) (d13 : BitVec 13) (sel : BitVec 13) (n : BitVec 8) (imm : BitVec 13),
    let bad : Out := .next (s.faulted c t { code := 0x10, addr := pcWord (s.thrOf c t).pc })
    MayIssue s c t {} →
    exec (.bcc c t ra 7 o18) s = bad ∧ exec (.loop c t true ra 0) s = bad ∧ exec (.lds c t rd ra 3 true d13) s = bad ∧ exec (.sts c t rd ra 3 d13) s = bad ∧
    (6 < sel.toNat → exec (.mft c t rd sel) s = bad ∧ exec (.mtt c t ra sel) s = bad) ∧
    ((s.thrOf c t).slot ≠ none → ∀ i ∈ [Instr.bcc c t ra 0 o18, .jal c t rd o21, .jalr c t rd ra, .loop c t true ra imm, .sysc c t n, .trap c t n,
      .sysret c t, .retx c t, .retd c t, .setm c t n], exec i s = bad) ∧
    ((s.thrOf c t).slot = none → 0 < (s.thrOf c t).lc1.toInt → (s.thrOf c t).pc = (s.thrOf c t).le1 →
      ∀ i ∈ [Instr.bcc c t ra 0 o18, .jal c t rd o21, .jalr c t rd ra, .loop c t true ra 1],
        exec i s = .next (s.faulted c t { code := 0x14, sub := 1, addr := pcWord (s.thrOf c t).pc }))

/-- R95, after Table 3-13: MFT reads LS, LE, LC of both levels and FSR by selector, and MTT writes them; LS and LE take 4-aligned addresses below 0x1_0000, and FSR its 13 bits. -/
def Sys2Proof.Claims.ThreadRegisterMoves : Prop :=
  ∀ (s : State) (c : CoreId) (t : Thr) (rd ra : Reg) (a : Word),
    (MayIssue s c t { writes := [rd.val] } → let th := s.thrOf c t
      exec (.mft c t rd 0) s = .next (s.wrote c t rd (tint (th.ls0.setWidth 64))) ∧ exec (.mft c t rd 1) s = .next (s.wrote c t rd (tint (th.le0.setWidth 64))) ∧
      exec (.mft c t rd 2) s = .next (s.wrote c t rd (tint th.lc0)) ∧ exec (.mft c t rd 3) s = .next (s.wrote c t rd (tint (th.ls1.setWidth 64))) ∧
      exec (.mft c t rd 4) s = .next (s.wrote c t rd (tint (th.le1.setWidth 64))) ∧ exec (.mft c t rd 5) s = .next (s.wrote c t rd (tint th.lc1)) ∧
      exec (.mft c t rd 6) s = .next (s.wrote c t rd (tint (th.fsr.setWidth 64)))) ∧
    (MayIssue s c t {} → s.greg c t ra = tint a →
      let upd (f : Thread → Thread) : Out := .next (s.retired c t fun k => k.updThread t.val f)
      exec (.mtt c t ra 2) s = upd (fun th => { th with lc0 := a }) ∧ exec (.mtt c t ra 5) s = upd (fun th => { th with lc1 := a }) ∧
      exec (.mtt c t ra 6) s = upd (fun th => { th with fsr := a.setWidth 13 }) ∧
      (a.toNat % 4 = 0 → a.toNat < 65536 →
        exec (.mtt c t ra 0) s = upd (fun th => { th with ls0 := a.setWidth 16 }) ∧ exec (.mtt c t ra 1) s = upd (fun th => { th with le0 := a.setWidth 16 }) ∧
        exec (.mtt c t ra 3) s = upd (fun th => { th with ls1 := a.setWidth 16 }) ∧ exec (.mtt c t ra 4) s = upd (fun th => { th with le1 := a.setWidth 16 })) ∧
      (a.toNat % 4 ≠ 0 → ∀ sel ∈ [(0 : BitVec 13), 1, 3, 4], exec (.mtt c t ra sel) s = .next (s.faulted c t { code := 0x17, addr := a })) ∧
      (a.toNat % 4 = 0 → 65536 ≤ a.toNat → ∀ sel ∈ [(0 : BitVec 13), 1, 3, 4], exec (.mtt c t ra sel) s = .next (s.faulted c t { code := 0x16, addr := a })))

/-! ## Entries and returns -/

/-- R142 to R144: SYSC n and TRAP n are entries with the next word as the return address: SYSC with n of 0 to 7, enabled in ENT.n when VECMODE is 0; TRAP only when VECMODE is 1. -/
def Sys2Proof.Claims.SystemCalls : Prop :=
  ∀ (s : State) (c : CoreId) (t : Thr) (n : BitVec 8), MayIssue s c t { noSlot := true } →
    let enter (kind : EvKind) : Out := .next (s.onCore c.val fun e k =>
      takeEntry e (k.updThread t.val Thread.count) t.val { kind := kind, code := n.toNat } ((s.thrOf c t).pc + 4) false)
    let bad : Out := .next (s.faulted c t { code := 0x10, addr := pcWord (s.thrOf c t).pc })
    (n.toNat ≤ 7 → ((s.coreAt c.val).vecmode = true ∨ mget false (s.coreAt c.val).entEn n.toNat = true) → exec (.sysc c t n) s = enter .sysc) ∧
    (n.toNat ≤ 7 → (s.coreAt c.val).vecmode = false → mget false (s.coreAt c.val).entEn n.toNat = false → exec (.sysc c t n) s = bad) ∧
    (7 < n.toNat → exec (.sysc c t n) s = bad) ∧
    ((s.coreAt c.val).vecmode = true → exec (.trap c t n) s = enter .trap) ∧
    ((s.coreAt c.val).vecmode = false → exec (.trap c t n) s = bad)

/-- R134, R135, R142, R143: an entry other than the double fault saves the return address and the status, reports the cause and the address, sets the mask and S mode, and goes to the vector; it changes no general register, loop register, FSR, tag, queue or memory. What the instruction it abandons held of the tracker is released first, and a pending HALT is taken where R44 allows. -/
def Sys2Proof.Claims.NormalEntry : Prop :=
  ∀ (e : Env) (c : Core) (t : Nat) (ev : Ev) (ret : BitVec 16) (ds : Bool), ((c.thread t).dfh = false) →
    (ev.kind ≠ .intr → (c.thread t).arm = true) →
    (ev.kind = .fault → ev.async = false → ev.imp = false → (c.thread t).ml.toNat < (faultLevel ev.code).toNat) →
    let k := c.abandon t
    let th := k.thread t
    takeEntry e c t ev ret ds = (k.setThread t ({ th with
      xra := ret, pmode := th.smode, pml := th.ml, ds := ds, arm := false
      ml := match ev.kind with
        | .fault => faultLevel ev.code
        | .intr => BitVec.ofNat 3 (ev.code - 0x30)
        | .sysc => if c.vecmode then th.ml else mget 0 c.entMl ev.code
        | .trap => th.ml
      xcause := causeWord ev, xaddr := ev.addr, smode := true
      pc := if c.vecmode then BitVec.ofNat 16 (8 * ev.code) else match ev.kind with
        | .sysc => mget 0 c.entAddr ev.code
        | .fault => c.exv
        | _ => c.irqv
      st := .run, wcause := .none, waitOp := none, bmov := none, slot := none, shadow := false } : Thread).boundary, []) ∧
    th = { c.thread t with wcause := .none, waitOp := none, bmov := none, place := none }

/-- R131, R145: a fault, SYSC or TRAP while ARM is 0, and a synchronous fault whose level is at or below the mask, is the double fault: it saves into DRA and DST, sets DFH, the mask 7 and the double-fault code, keeps CODE, SUB, IMP and TRP of XCAUSE, and goes to DFV or vector 0x3F. -/
def Sys2Proof.Claims.DoubleFault : Prop :=
  ∀ (e : Env) (c : Core) (t : Nat) (ev : Ev) (ret : BitVec 16) (ds : Bool), (c.thread t).dfh = false → ev.kind ≠ .intr →
    ((c.thread t).arm = false ∨ (ev.kind = .fault ∧ ev.async = false ∧ ev.imp = false ∧ (faultLevel ev.code).toNat ≤ (c.thread t).ml.toNat)) →
    let k := c.abandon t
    let th := k.thread t
    takeEntry e c t ev ret ds = (k.setThread t ({ th with
      dra := ret, dpmode := th.smode, dpml := th.ml, dds := ds, dparm := th.arm, ml := 7, arm := false, dfh := true
      xcause := dfCause th.xcause ev.code, xaddr := ev.addr, smode := true
      pc := if c.vecmode then BitVec.ofNat 16 (8 * 0x3F) else c.dfv
      st := .run, wcause := .none, waitOp := none, bmov := none, slot := none, shadow := false } : Thread).boundary, [])

/-- R146: a fault, SYSC or TRAP while DFH is 1 is the third fault: the core is reset and a record of severity 2 carries the code and the thread. -/
def Sys2Proof.Claims.ThirdFault : Prop :=
  ∀ (e : Env) (c : Core) (t : Nat) (ev : Ev) (ret : BitVec 16) (ds : Bool), (c.thread t).dfh = true →
    let r := takeEntry e c t ev ret ds
    r.1.thr = [] ∧ r.1.spad = {} ∧ r.1.imem = [] ∧ r.1.mxe = {} ∧ r.1.vxe = {} ∧ r.1.trk = {} ∧ r.1.rings = [] ∧ r.1.held = c.held ∧
    (∀ i, i < 64 → (r.1.chiAt i).epoch = (c.chiAt i).epoch + 1 ∧ (r.1.chiAt i).fsm = {} ∧ (r.1.choAt i).ccause = 5) ∧
    ∃ rest, r.2 = e.errRec 0x03 2 ev.code t t :: rest

/-- Entries: what a normal entry, a double fault and a third fault save, set and leave: NormalEntry, DoubleFault and ThirdFault together. -/
def Obligations.Entries : Prop :=
  Sys2Proof.Claims.NormalEntry ∧ Sys2Proof.Claims.DoubleFault ∧ Sys2Proof.Claims.ThirdFault

/-- R128: a privileged instruction in U mode is the privileged instruction fault at its address, before any operand is read. -/
def Sys2Proof.Claims.PrivilegedInUserMode : Prop :=
  ∀ (s : State) (c : CoreId) (t : Thr) (rd ra rb : Reg) (perm : BitVec 2) (m : BitVec 8), MayIssue s c t { writes := [rd.val] } → (s.thrOf c t).smode = false →
    ∀ i : Instr, (i ∈ [Instr.mkptr c t rd ra rb perm, .mksptr c t rd ra, .mkhnd c t rd ra, .mkcode c t rd ra, .imld c t rd ra, .imst c t ra rb, .arm c t] ∨
        ((s.thrOf c t).slot = none ∧ m.toNat ≤ 1 ∧ i ∈ [Instr.sysret c t, .retx c t, .retd c t, .setm c t m])) →
      exec i s = .next (s.faulted c t { code := 0x11, addr := pcWord (s.thrOf c t).pc })

/-- Illegal forms and slots, loop violations, and privileged instructions in U mode take their faults: IllegalForms and PrivilegedInUserMode together. -/
def Obligations.IllegalAndPrivileged : Prop :=
  Sys2Proof.Claims.IllegalForms ∧ Sys2Proof.Claims.PrivilegedInUserMode

/-- R139: RETX and SYSRET go to XRA with the mode and the mask of the saved status, ARM 1 and DFH 0; RETD goes to DRA with the mode and the mask that DST holds, ARM its saved value and DFH 0. Each takes effect from the next instruction, without a delay slot, in both settings of VECMODE. At a loop's end a return counts as R122 says of an instruction that is no taken branch, and control goes to the saved address (log entry 35). -/
def Obligations.ReturnInstructions : Prop :=
  ∀ (s : State) (c : CoreId) (t : Thr), MayIssue s c t { noSlot := true, priv := true } →
    (∀ i ∈ [Instr.retx c t, .sysret c t], exec i s = .next (s.after c fun k => k.updThread t.val fun th =>
      ({ th.count.ran.loopCount with pc := th.xra, smode := th.pmode, ml := th.pml, arm := true, dfh := false, slot := none, shadow := true } : Thread).boundary)) ∧
    exec (.retd c t) s = .next (s.after c fun k => k.updThread t.val fun th =>
      ({ th.count.ran.loopCount with pc := th.dra, smode := th.dpmode, ml := th.dpml, arm := th.dparm, dfh := false, slot := none, shadow := true } : Thread).boundary)

/-- R138: ARM sets XST.ARM to 1 and XST.DFH to 0; it is privileged; with ARM already 1 and DFH 0 it has no effect beyond its own completion. -/
def Obligations.ArmInstruction : Prop :=
  ∀ (s : State) (c : CoreId) (t : Thr),
    (MayIssue s c t { priv := true } → exec (.arm c t) s = .next (s.retired c t fun k => k.updThread t.val fun th => { th with arm := true, dfh := false })) ∧
    (MayIssue s c t {} → (s.thrOf c t).smode = false → exec (.arm c t) s = .next (s.faulted c t { code := 0x11, addr := pcWord (s.thrOf c t).pc })) ∧
    (MayIssue s c t { priv := true } → (s.thrOf c t).arm = true → (s.thrOf c t).dfh = false → exec (.arm c t) s = .next (s.retired c t id))

/-- R151: SETM sets the mode, and the instruction after it is its shadow, at which nothing asynchronous is taken. -/
def Sys2Proof.Claims.SetMode : Prop :=
  ∀ (s : State) (c : CoreId) (t : Thr) (m : Bool), MayIssue s c t { noSlot := true, priv := true } →
    exec (.setm c t (if m then 1 else 0)) s = .next (s.after c fun k => k.updThread t.val fun th =>
      { ({ th.count with smode := m } : Thread).ran.advance with shadow := true })

/-- MFT, MTT, SETM, SYSC and TRAP: ThreadRegisterMoves, SetMode and SystemCalls together. -/
def Obligations.SystemInstructions : Prop :=
  Sys2Proof.Claims.ThreadRegisterMoves ∧ Sys2Proof.Claims.SetMode ∧ Sys2Proof.Claims.SystemCalls

/-- R44, R151: a HALT pending is taken at a boundary that is neither before a delay slot nor in the shadow of a mode change, and only from RUN. -/
def Sys2Proof.Claims.PendingHalt : Prop :=
  ∀ th : Thread, (th.haltPend = true → th.slot = none → th.shadow = false → th.st = .run → th.boundary = { th with st := .halt, haltPend := false }) ∧
    ((th.haltPend = false ∨ th.slot ≠ none ∨ th.shadow = true ∨ th.st ≠ .run) → th.boundary = th)

/-! ## Moves, pointers and creation -/

/-- R84, R85, R123 (Table 3-15): MOV copies any word but an EMPTY one; TAGOF answers the tag of any word; ASRAW keeps POISON and makes any other word RAW; ASINT and ASFLT retag a RAW, INT or FLT word. -/
def Sys2Proof.Claims.TagMoves : Prop :=
  ∀ (s : State) (c : CoreId) (t : Thr) (rd ra : Reg), MayIssue s c t { writes := [rd.val] } → let w := s.greg c t ra
    exec (.tagof c t rd ra) s = .next (s.wrote c t rd (tint (BitVec.ofNat 64 w.tag.toNat))) ∧
    (w.tag ≠ .empty → exec (.mov c t rd ra) s = .next (s.wrote c t rd w) ∧
      exec (.asraw c t rd ra) s = .next (s.wrote c t rd (if w.tag = .poison then w else traw w.val))) ∧
    (w.tag = .empty → ∀ i ∈ [Instr.mov c t rd ra, .asraw c t rd ra], exec i s = .next (s.faulted c t { code := 0x15, sub := 7 })) ∧
    (w.tag = .raw ∨ w.tag = .int ∨ w.tag = .flt →
      exec (.asint c t rd ra) s = .next (s.wrote c t rd (tint w.val)) ∧ exec (.asflt c t rd ra) s = .next (s.wrote c t rd (tflt w.val)))

/-- Table 3-15: PBASE, PLEN, POFF and PPERM answer a PTR's fields, PRDONLY clears its W permission, SCHIP and SKIND answer an SPTR's fields; PSUB narrows a PTR to at most n bytes from its address, and an offset outside the bounds or a negative n is the bounds fault. -/
def Sys2Proof.Claims.PointerFields : Prop :=
  ∀ (s : State) (c : CoreId) (t : Thr) (rd ra rb : Reg) (p n : Word), MayIssue s c t { writes := [rd.val] } →
    (s.greg c t ra = ⟨p, .ptr⟩ →
      exec (.pbase c t rd ra) s = .next (s.wrote c t rd (tint ((p >>> 22) &&& 0xFFFFF))) ∧
      exec (.plen c t rd ra) s = .next (s.wrote c t rd (tint ((p >>> 42) &&& 0xFFFFF))) ∧
      exec (.poff c t rd ra) s = .next (s.wrote c t rd (tint ((p.setWidth 22).signExtend 64))) ∧
      exec (.pperm c t rd ra) s = .next (s.wrote c t rd (tint (p >>> 62))) ∧
      exec (.prdonly c t rd ra) s = .next (s.wrote c t rd ⟨p &&& ~~~((1 : Word) <<< 62), .ptr⟩) ∧
      (s.greg c t rb = tint n → 0 ≤ ptrOff p → ptrOff p ≤ (ptrLen p : Int) → 0 ≤ n.toInt →
        exec (.psub c t rd ra rb) s = .next (s.wrote c t rd
          ⟨mkPtr (ptrR p) (ptrW p) (min n.toNat (ptrLen p - (ptrOff p).toNat)) (ptrBase p + (ptrOff p).toNat) 0, .ptr⟩)) ∧
      (s.greg c t rb = tint n → (ptrOff p < 0 ∨ (ptrLen p : Int) < ptrOff p ∨ n.toInt < 0) →
        exec (.psub c t rd ra rb) s = .next (s.faulted c t { code := 0x16, addr := Config.xaddrNoEa p n }))) ∧
    (s.greg c t ra = ⟨p, .sptr⟩ →
      exec (.schip c t rd ra) s = .next (s.wrote c t rd (tint (p >>> 52))) ∧
      exec (.skind c t rd ra) s = .next (s.wrote c t rd (tint ((p >>> 48) &&& 0xF))))

/-- R87, R123: no pointer instruction widens a PTR: a PSUB or PRDONLY result covers no byte and permits no access that its operand did not. -/
def Sys2Proof.Claims.PointersNarrow : Prop :=
  ∀ (p : Word) (n a : Nat) (k : Nat), 0 ≤ ptrOff p → ptrOff p ≤ (ptrLen p : Int) → ptrBase p + ptrLen p < 2 ^ 20 →
    let q := mkPtr (ptrR p) (ptrW p) (min n (ptrLen p - (ptrOff p).toNat)) (ptrBase p + (ptrOff p).toNat) 0
    let r := p &&& ~~~((1 : Word) <<< 62)
    (ptrCovers q a k = true → ptrCovers p a k = true) ∧ (ptrCovers r a k = ptrCovers p a k) ∧ ptrW r = false ∧ ptrR r = ptrR p ∧
    ptrR q = ptrR p ∧ ptrW q = ptrW p

/-- Table 3-15, R58, R372: MSGPTR.0 and MSGPTR.1 of a message that the ring still holds with the endpoint's epoch answer read-only PTRs to the payload before the ring's end and to its wrapped part, by LEN and SPLIT of the stored header; of any other they raise the channel fault with the endpoint as SUB. -/
def Sys2Proof.Claims.MessagePointers : Prop :=
  ∀ (s : State) (c : CoreId) (t : Thr) (rd ra : Reg) (h : Word), MayIssue s c t { writes := [rd.val] } → s.greg c t ra = ⟨h, .hnd⟩ → hndKind h = 6 →
    let k := s.coreAt c.val
    let base := (k.ringAt (hndIndex h)).base * 128
    let hdr := base + hndPos h * 16
    let len := rdNat k.spad.bytes hdr 2
    let split := rdNat k.spad.bytes (hdr + 2) 2
    ((msgHeld k h).2 = true →
      exec (.msgptr0 c t rd ra) s = .next (s.wrote c t rd ⟨mkPtr true false split (hdr + 16) 0, .ptr⟩) ∧
      exec (.msgptr1 c t rd ra) s = .next (s.wrote c t rd ⟨mkPtr true false (len - split) base 0, .ptr⟩)) ∧
    ((msgHeld k h).2 = false → ∀ i ∈ [Instr.msgptr0 c t rd ra, .msgptr1 c t rd ra],
      exec i s = .next (s.faulted c t { code := 0x1E, sub := rdNat k.spad.bytes (hdr + 5) 1 }))

/-- R86: MKPTR, MKSPTR, MKHND and MKCODE make typed words of INT words; a base, length, handle or address outside its range is the bounds fault. -/
def Sys2Proof.Claims.Creation : Prop :=
  ∀ (s : State) (c : CoreId) (t : Thr) (rd ra rb : Reg) (perm : BitVec 2) (a n : Word), MayIssue s c t { writes := [rd.val], priv := true } →
    s.greg c t ra = tint a →
    (s.greg c t rb = tint n → 0 ≤ a.toInt → 0 ≤ n.toInt → a.toInt + n.toInt ≤ (s.env c.val).spadBytes →
      exec (.mkptr c t rd ra rb perm) s = .next (s.wrote c t rd ⟨mkPtr (perm.getLsbD 1) (perm.getLsbD 0) n.toNat a.toNat 0, .ptr⟩)) ∧
    (s.greg c t rb = tint n → (a.toInt < 0 ∨ n.toInt < 0 ∨ (s.env c.val).spadBytes < a.toInt + n.toInt) →
      exec (.mkptr c t rd ra rb perm) s = .next (s.faulted c t { code := 0x16, addr := Config.xaddrNoEa a n })) ∧
    exec (.mksptr c t rd ra) s = .next (s.wrote c t rd ⟨a, .sptr⟩) ∧
    (hndOk a = true → exec (.mkhnd c t rd ra) s = .next (s.wrote c t rd ⟨a, .hnd⟩)) ∧
    (hndOk a = false → exec (.mkhnd c t rd ra) s = .next (s.faulted c t { code := 0x16, addr := Config.xaddrNoEa a 0 })) ∧
    (a.toNat % 4 = 0 → a.toNat < 65536 → exec (.mkcode c t rd ra) s = .next (s.wrote c t rd ⟨a, .code⟩)) ∧
    (a.toNat % 4 ≠ 0 → exec (.mkcode c t rd ra) s = .next (s.faulted c t { code := 0x17, addr := a })) ∧
    (a.toNat % 4 = 0 → 65536 ≤ a.toNat → exec (.mkcode c t rd ra) s = .next (s.faulted c t { code := 0x16, addr := a }))

/-- Tag and pointer instructions: fields, narrowing, message pointers and creation: TagMoves, PointerFields, PointersNarrow, MessagePointers and Creation together. -/
def Obligations.TagAndPointerInstructions : Prop :=
  Sys2Proof.Claims.TagMoves ∧ Sys2Proof.Claims.PointerFields ∧ Sys2Proof.Claims.PointersNarrow ∧ Sys2Proof.Claims.MessagePointers ∧ Sys2Proof.Claims.Creation

/-! ## Counters, fences and barriers -/

/-- Thread t of core c, having issued a counter or fence operation, waits at it. -/
def Sys2Proof.Machine.State.ctrWaits (s : State) (c : CoreId) (t : Thr) (cause : WCause) (iw : Nat) : State :=
  s.after c fun k => k.updThread t.val fun th => { th.count with st := .wait, wcause := cause, waitOp := some (.ctr iw) }

/-- R326: an increment adds to a local counter; a sum above 2^64 - 1 leaves it at 2^64 - 1 and broken; no other counter changes. -/
def Sys2Proof.Claims.CounterIncrement : Prop :=
  ∀ (k : Core) (n amt : Nat), n < 48 → amt < 2 ^ 32 →
    let v := (k.scAt n).toNat + amt
    ((k.scAdd n amt).scAt n).toNat = min (2 ^ 64 - 1) v ∧ (k.scAdd n amt).scBroken n = (k.scBroken n || decide (2 ^ 64 ≤ v)) ∧
    ∀ m, m < 48 → m ≠ n → (k.scAdd n amt).scAt m = k.scAt m ∧ (k.scAdd n amt).scBroken m = k.scBroken m

/-- R326 to R328: in a thread, SCINC and its release form add 1 to 2^32 - 1 to a local counter, the release form once every earlier far write of the thread that the scope holds is acknowledged, else it waits with cause 0x08; an amount of 0 or of 2^32 and more is the bounds fault. -/
def Sys2Proof.Claims.CountersLocal : Prop :=
  ∀ (s : State) (c : CoreId) (t : Thr) (sc : BitVec 2) (rb : Reg) (n : BitVec 7) (b : Word), MayIssue s c t {} → n.toNat ≤ 47 → s.greg c t rb = tint b →
    (0 < b.toNat → b.toNat < 2 ^ 32 →
      exec (.scinc c t 0 rb n) s = .next (s.retired c t fun k => k.scAdd n.toNat b.toNat) ∧
      ((s.coreAt c.val).released t.val sc.toNat = true →
        exec (.scincRel c t 0 sc rb n) s = .next (s.retired c t fun k => k.scAdd n.toNat b.toNat)) ∧
      ((s.coreAt c.val).released t.val sc.toNat = false →
        exec (.scincRel c t 0 sc rb n) s = .next (s.ctrWaits c t .release (qWord 1 0 sc.toNat 0 rb.val n.toNat)))) ∧
    ((b.toNat = 0 ∨ 2 ^ 32 ≤ b.toNat) → ∀ i ∈ [Instr.scinc c t 0 rb n, .scincRel c t 0 sc rb n],
      exec i s = .next (s.faulted c t { code := 0x16 }))

/-- R329, R330, R522, R523: an increment of the counter that an SPTR of kind 2 names: at once when it is this core's, else posted with a transaction number; in paced mode the posted one is held, and waits with cause 0x09 while the hold is full. An SPTR that names no counter is the far access fault (R125). -/
def Sys2Proof.Claims.CountersRemote : Prop :=
  ∀ (s : State) (c : CoreId) (t : Thr) (sc : BitVec 2) (ra rb : Reg) (a b : Word), MayIssue s c t {} → s.greg c t ra = ⟨a, .sptr⟩ →
    s.greg c t rb = tint b → 0 < b.toNat → b.toNat < 2 ^ 32 →
    let na := (s.env c.val).normChip a
    let x := (s.coreAt c.val).xid
    let posted (k : Core) : Core := { k with xid := x + 1, writes := k.writes ++ [{ xid := x, issuer := t.val, scope := 4, addr := na, inc := true }] }
    ∀ p ∈ [(Instr.scincR c t 0 ra rb, qWord 2 0 0 ra.val rb.val 0), (.scincRRel c t 0 sc ra rb, qWord 3 0 sc.toNat ra.val rb.val 0)],
      (saCounter a = none → exec p.1 s = .next (s.faulted c t { code := 0x21, addr := a })) ∧
      ((saCounter a).isSome = true → (s.coreAt c.val).released t.val sc.toNat = true →
        (∀ n, (s.env c.val).ownCounter a = some n → exec p.1 s = .next (s.retired c t fun k => k.scAdd n b.toNat)) ∧
        ((s.env c.val).ownCounter a = none →
          ((s.coreAt c.val).pace.mode = false → exec p.1 s = .next ((s.retired c t posted).applyEmits c.val [.svc na x (.inc na b.toNat)])) ∧
          ((s.coreAt c.val).pace.mode = true → (s.coreAt c.val).pace.used < 64 →
            exec p.1 s = .next (s.retired c t fun k => (posted k).hold (.send (.svc na x (.inc na b.toNat))))) ∧
          ((s.coreAt c.val).holdRoom = false → exec p.1 s = .next (s.ctrWaits c t .pace p.2))))

/-- R331, R333, R336: WAIT.GE completes once the counter is at least the target, and WAIT.BG once the line's generation is; before that the thread waits with cause 0x02; a broken counter or line is the broken counter fault with its SUB. -/
def Sys2Proof.Claims.CounterWaits : Prop :=
  ∀ (s : State) (c : CoreId) (t : Thr) (sc : BitVec 2) (rb : Reg) (n : BitVec 7) (b : Word), MayIssue s c t {} → s.greg c t rb = tint b →
    (n.toNat ≤ 47 →
      ((s.coreAt c.val).scBroken n.toNat = false → b.toNat ≤ ((s.coreAt c.val).scAt n.toNat).toNat →
        exec (.waitGe c t 0 sc rb n) s = .next (s.retired c t id)) ∧
      ((s.coreAt c.val).scBroken n.toNat = false → ((s.coreAt c.val).scAt n.toNat).toNat < b.toNat →
        exec (.waitGe c t 0 sc rb n) s = .next (s.ctrWaits c t .counter (qWord 4 0 sc.toNat 0 rb.val n.toNat))) ∧
      ((s.coreAt c.val).scBroken n.toNat = true → exec (.waitGe c t 0 sc rb n) s = .next (s.faulted c t { code := 0x1F, sub := n.toNat }))) ∧
    (n.toNat ≤ 7 →
      ((s.line n.toNat).brk = false → b.toNat ≤ ((s.coreAt c.val).bgenAt n.toNat).toNat → exec (.waitBg c t 0 sc rb n) s = .next (s.retired c t id)) ∧
      ((s.line n.toNat).brk = false → ((s.coreAt c.val).bgenAt n.toNat).toNat < b.toNat →
        exec (.waitBg c t 0 sc rb n) s = .next (s.ctrWaits c t .counter (qWord 5 0 sc.toNat 0 rb.val n.toNat))) ∧
      ((s.line n.toNat).brk = true → exec (.waitBg c t 0 sc rb n) s = .next (s.faulted c t { code := 0x1F, sub := 48 + n.toNat })))

/-- R338 to R340, R421, R423: REL and BARR complete once the thread's earlier far writes that the scope holds are acknowledged, and wait with cause 0x08 until then; ACQ completes; BARR sets the arrive bit of a line that its core participates in, that is not broken and on which no arrival stands, and waits for a standing one; a line of which the core is no participant is the bounds fault. -/
def Sys2Proof.Claims.FencesAndBarriers : Prop :=
  ∀ (s : State) (c : CoreId) (t : Thr) (sc : BitVec 2) (n : BitVec 7), MayIssue s c t {} → let k := s.coreAt c.val
    exec (.acq c t sc) s = .next (s.retired c t id) ∧
    (k.released t.val sc.toNat = true → exec (.rel c t 0 sc) s = .next (s.retired c t id)) ∧
    (k.released t.val sc.toNat = false → exec (.rel c t 0 sc) s = .next (s.ctrWaits c t .release (qWord 6 0 sc.toNat 0 0 0))) ∧
    (n.toNat ≤ 7 → (k.part.getLsbD n.toNat && (s.line n.toNat).isLocal) = true →
      (k.released t.val sc.toNat = true → (s.line n.toNat).brk = false → k.arrived n.toNat = false → k.pace.mode = false →
        exec (.barr c t 0 sc n) s = .next (s.retired c t fun k => { k with arrive := k.arrive ||| BitVec.ofNat 8 (2 ^ n.toNat) })) ∧
      (k.released t.val sc.toNat = true → (s.line n.toNat).brk = false → k.arrived n.toNat = true →
        exec (.barr c t 0 sc n) s = .next (s.ctrWaits c t .counter (qWord 8 0 sc.toNat 0 0 n.toNat))) ∧
      (k.released t.val sc.toNat = true → (s.line n.toNat).brk = true →
        exec (.barr c t 0 sc n) s = .next (s.faulted c t { code := 0x1F, sub := 48 + n.toNat })) ∧
      (k.released t.val sc.toNat = false → exec (.barr c t 0 sc n) s = .next (s.ctrWaits c t .release (qWord 8 0 sc.toNat 0 0 n.toNat)))) ∧
    (n.toNat ≤ 7 → (k.part.getLsbD n.toNat && (s.line n.toNat).isLocal) = false → exec (.barr c t 0 sc n) s = .next (s.faulted c t { code := 0x16 }))

/-- R124: an operation with q of 1 to 4 goes with its operand values to the queue that q names, when the thread owns it and it has room; a thread that owns a full queue waits with cause 0x04, and one that does not own the queue takes the queue ownership fault, which comes before the far access fault of an SPTR that names no counter (R98). -/
def Sys2Proof.Claims.CountersQueued : Prop :=
  ∀ (s : State) (c : CoreId) (t : Thr) (q : BitVec 3) (sc : BitVec 2) (ra rb : Reg) (n : BitVec 7), MayIssue s c t {} →
    1 ≤ q.toNat → q.toNat ≤ 4 → ((s.env c.val).vcore = true → q ≠ 1) → n.toNat ≤ 7 →
    ∀ p ∈ [(Instr.scinc c t q rb n, qWord 0 q.toNat 0 0 rb.val n.toNat), (.scincRel c t q sc rb n, qWord 1 q.toNat sc.toNat 0 rb.val n.toNat),
        (.scincR c t q ra rb, qWord 2 q.toNat 0 ra.val rb.val 0), (.scincRRel c t q sc ra rb, qWord 3 q.toNat sc.toNat ra.val rb.val 0),
        (.waitGe c t q sc rb n, qWord 4 q.toNat sc.toNat 0 rb.val n.toNat), (.waitBg c t q sc rb n, qWord 5 q.toNat sc.toNat 0 rb.val n.toNat),
        (.rel c t q sc, qWord 6 q.toNat sc.toNat 0 0 0), (.barr c t q sc n, qWord 8 q.toNat sc.toNat 0 0 n.toNat)],
      ((s.coreAt c.val).owner (s.env c.val) (q.toNat - 1) = some t.val → qDepth (q.toNat - 1) ≤ ((s.coreAt c.val).eng (q.toNat - 1)).q.length →
        exec p.1 s = .next (s.after c fun k => k.updThread t.val fun th => { th with st := .wait, wcause := .queueFull, waitOp := some (.queue p.2) })) ∧
      (∀ a b, ctrOperands (s.env c.val) (s.coreAt c.val) (s.thrOf c t) p.2 = .ok (a, b) →
        ((s.coreAt c.val).owner (s.env c.val) (q.toNat - 1) = some t.val → ((s.coreAt c.val).eng (q.toNat - 1)).q.length < qDepth (q.toNat - 1) →
          (ctrTarget p.2 a = .ok () →
            exec p.1 s = .next (s.retired c t fun k => k.push (q.toNat - 1) (ctrRecord (q.toNat - 1) p.2 (s.thrOf c t).pc a b) [])) ∧
          (∀ ev, ctrTarget p.2 a = .error ev → exec p.1 s = .next (s.faulted c t ev))) ∧
        ((s.coreAt c.val).owner (s.env c.val) (q.toNat - 1) ≠ some t.val →
          exec p.1 s = .next (s.faulted c t { code := 0x19, sub := q.toNat - 1 })))

/-- Counters: local and remote increments, waits, and counter operations in engine queues: CounterIncrement, CountersLocal, CountersRemote, CounterWaits and CountersQueued together. -/
def Obligations.CounterInstructions : Prop :=
  Sys2Proof.Claims.CounterIncrement ∧ Sys2Proof.Claims.CountersLocal ∧ Sys2Proof.Claims.CountersRemote ∧ Sys2Proof.Claims.CounterWaits ∧ Sys2Proof.Claims.CountersQueued

/-- R526: PACE completes at once outside paced mode and for a thread that TMASK does not name; in paced mode a thread of TMASK marks its period done and, unless that closes the period at its boundary, waits with cause 0x09. -/
def Sys2Proof.Claims.PaceInstruction : Prop :=
  ∀ (s : State) (c : CoreId) (t : Thr), MayIssue s c t {} → let k := s.coreAt c.val
    ((k.pace.mode = false ∨ k.pace.tmask.getLsbD t.val = false) → exec (.pace c t) s = .next (s.retired c t id)) ∧
    (k.pace.mode = true → k.pace.tmask.getLsbD t.val = true → let w := (s.thrOf c t).pw
      let k1 := paceAdvance (s.env c.val) (k.updThread t.val fun th => { th with pdone := true })
      (k1.pace.work ≤ w → exec (.pace c t) s = .next (s.after c fun _ => k1.updThread t.val fun th =>
        { th.count with st := .wait, wcause := .pace, waitOp := some (.pace w) })) ∧
      (w < k1.pace.work → exec (.pace c t) s = .next (s.retired c t fun _ => k1.updThread t.val fun th => { th with pw := k1.pace.work, pdone := false })))

/-- REL, ACQ, BARR and PACE: FencesAndBarriers and PaceInstruction together. -/
def Obligations.FencesBarriersPace : Prop :=
  Sys2Proof.Claims.FencesAndBarriers ∧ Sys2Proof.Claims.PaceInstruction

/-! ## Channels and the DMA queue -/

/-- R358, R360, R361: a SEND on an OPEN outbound endpoint with credit for its units and a free message place takes the credit, counts the message, makes its header and reads its payload with cause 0x0A; when the payload has been read, it is placed for injection and the SEND completes. Without credit or place, and on an OPENING endpoint, it waits with cause 0x03. On an endpoint that is neither OPEN nor OPENING it is the channel fault, and for a message larger than a slot or than the whole grant the message size fault. While an earlier access holds its payload it waits with cause 0x05. It keeps its place in issue order throughout (R69). -/
def Sys2Proof.Claims.Send : Prop :=
  ∀ (s : State) (c : CoreId) (t : Thr) (ra rb rc : Reg) (h p : Word) (len : Nat), MayIssue s c t {} → s.greg c t ra = ⟨h, .hnd⟩ → hndKind h = 1 →
    s.greg c t rb = ⟨p, .ptr⟩ → s.greg c t rc = tint (BitVec.ofNat 64 len) → len ≤ 4096 → ptrRange p len false = true →
    let k := s.coreAt c.val
    let n := hndIndex h
    let x := k.choAt n
    let a := (ptrAddr p).toNat
    let u := msgUnits x.slotKind len
    let held : Out := .next (s.after c fun k => ((k.setCho n { x with stall := x.stall + 1 }).takePlace t.val true a len false).updThread t.val fun th =>
      { th.count with st := .wait, wcause := .sendCredit, waitOp := some (.send ra.val rb.val rc.val true) })
    (k.conflict true a len false = true → exec (.send c t ra rb rc) s = .next (s.after c fun k => (k.countConfl.takePlace t.val true a len false).updThread t.val fun th =>
      { th with st := .wait, wcause := .conflict, waitOp := some (.send ra.val rb.val rc.val false) })) ∧
    (k.conflict true a len false = false →
    (x.fsm.st = .on → (x.slotKind = true → len ≤ 16 * x.slot - 16) → u ≤ x.grant →
      (u ≤ x.credit ∧ k.placesUsed < 4 →
        exec (.send c t ra rb rc) s = .next (s.after c fun k =>
          let k1 := k.setCho n { x with credit := x.credit - u, msg := x.msg + 1 }
          (({ k1 with out := k1.out ++ [outOf (s.env c.val) k1 t.val n len] } : Core).takePlace t.val true a len false).updThread t.val fun th =>
            { th.count with st := .wait, wcause := .sendRead, waitOp := some (.sendRead a len) })) ∧
      (¬(u ≤ x.credit ∧ k.placesUsed < 4) → exec (.send c t ra rb rc) s = held)) ∧
    (x.fsm.st = .starting → exec (.send c t ra rb rc) s = held) ∧
    (x.fsm.st = .off ∨ x.fsm.st = .stopping → exec (.send c t ra rb rc) s = .next (s.faulted c t { code := 0x1E, sub := n })) ∧
    (x.fsm.st = .on → ((x.slotKind = true ∧ 16 * x.slot - 16 < len) ∨ x.grant < u) →
      exec (.send c t ra rb rc) s = .next (s.faulted c t { code := 0x1D, sub := n })))

/-- R358, R360, R361: when the payload of a SEND has been read it completes: its message, with the payload's bytes and poison, is placed for injection, and the thread goes on; its place in issue order goes, and the rings settle (R195). -/
def Sys2Proof.Claims.SendCompletes : Prop :=
  ∀ (s : State) (c : CoreId) (t : Thr) (a len : Nat), (s.coreAt c.val).held = false → t.val < (s.env c.val).nthr → (s.thrOf c t).st = .wait →
    (s.thrOf c t).wcause = .sendRead → (s.thrOf c t).waitOp = some (.sendRead a len) →
    exec (.waitConditionMet c t) s = .next (s.onCore c.val fun e k =>
      k.settleAfter e ((sendPlace k t.val a len).updThread t.val fun th => th.ran.advance.boundary, []))

/-- R353, R354, R368: OPEN on a CLOSED outbound endpoint sends an open request and makes it OPENING, and has no effect on one that is OPENING or OPEN; CLOSE on an OPEN one makes it CLOSING with a close request behind its messages. -/
def Sys2Proof.Claims.OpenAndClose : Prop :=
  ∀ (s : State) (c : CoreId) (t : Thr) (ra : Reg) (h : Word), MayIssue s c t {} → s.greg c t ra = ⟨h, .hnd⟩ → hndKind h = 1 →
    let n := hndIndex h
    let x := (s.coreAt c.val).choAt n
    (x.fsm.st = .off → exec (.open_ c t ra) s = .next ((s.retired c t fun k => k.setCho n { x with fsm := { x.fsm with en := true, st := .starting } }).applyEmits
      c.val [openReqEmit (s.env c.val) n x])) ∧
    (x.fsm.st = .starting ∨ x.fsm.st = .on → exec (.open_ c t ra) s = .next (s.retired c t id)) ∧
    (x.fsm.st = .on → exec (.close c t ra) s = .next (s.retired c t fun k =>
      { k.setCho n { x with fsm := { x.fsm with en := false, st := .stopping } } with
          out := k.out ++ [{ cho := n, dyn := x.dyn, stream := x.stream, dst := x.dest (s.env c.val), dchi := x.dchi, epoch := x.epoch }] }))

/-- R364, R368, R369: CLOSE on an OPEN inbound endpoint raises its epoch and closes it, drops and counts the messages not yet dispatched, and sends the peer a close notice with the old epoch, which answers no request; its ring's HEAD then passes what it may. -/
def Sys2Proof.Claims.CloseInbound : Prop :=
  ∀ (s : State) (c : CoreId) (t : Thr) (ra : Reg) (h : Word) (p : Peer), MayIssue s c t {} → s.greg c t ra = ⟨h, .hnd⟩ → hndKind h = 2 →
    let k := s.coreAt c.val
    let m := hndIndex h
    let x := k.chiAt m
    let r := k.ringAt x.ring
    let undispatched (y : RMsg) : Bool := y.chi == m && y.st == .undispatched
    let k1 := (k.setRing x.ring { r with msgs := r.msgs.map fun y => if undispatched y then { y with st := .consumed } else y }).setChi m
      { x with fsm := {}, epoch := x.epoch + 1, peer := none, drop := x.drop + r.msgs.countP undispatched }
    let q := ringSettle (s.env c.val) k1 x.ring
    x.fsm.st = .on → x.peer = some p →
    exec (.close c t ra) s = .next ((s.after c fun _ => q.1.retire t.val).applyEmits c.val
      (.svc ((s.env c.val).normChip (saCore p.chip 1 p.lcid 0)) 0 (.closeNotice p.cho x.epoch.toNat false) :: q.2)) ∧
    (q.1.chiAt m).epoch = x.epoch + 1 ∧ (q.1.chiAt m).fsm.st = .off ∧ q.1.spad = k.spad ∧ ∀ j, j ≠ m → q.1.chiAt j = k.chiAt j

/-- R59, R193: DONE of a thread that holds no message makes it IDLE at the next address; of one that holds a message, the message becomes consumed too, and its ring's HEAD passes what it may. -/
def Sys2Proof.Claims.DoneInstruction : Prop :=
  ∀ (s : State) (c : CoreId) (t : Thr), MayIssue s c t {} → (s.thrOf c t).haltPend = false →
    ((s.thrOf c t).msg = none → exec (.done c t) s = .next (s.after c fun k => k.updThread t.val fun th => { th.count.ran.advance with msg := none, st := .idle })) ∧
    (∀ h, (s.thrOf c t).msg = some h →
      let k := (s.coreAt c.val).updThread t.val fun th => { th with msg := none }
      let r := ringSettle (s.env c.val) (k.setRing h.ring { k.ringAt h.ring with msgs := (k.ringAt h.ring).msgs.map fun q =>
          if q.pos = h.pos ∧ q.epoch = h.epoch ∧ q.st = .held then { q with st := .consumed } else q }) h.ring
      exec (.done c t) s = .next ((s.after c fun _ => r.1.updThread t.val fun th => { th.count.ran.advance with st := .idle }).applyEmits c.val r.2))

/-- SEND, OPEN, CLOSE and DONE: Send, SendCompletes, OpenAndClose, CloseInbound and DoneInstruction together. -/
def Obligations.ChannelInstructions : Prop :=
  Sys2Proof.Claims.Send ∧ Sys2Proof.Claims.SendCompletes ∧ Sys2Proof.Claims.OpenAndClose ∧ Sys2Proof.Claims.CloseInbound ∧ Sys2Proof.Claims.DoneInstruction

/-- R126, R295, R303: DMAGO of a descriptor that passes the checks of Table 9-4 goes with its two ranges to the queue of the channel that the handle names, and T0 of a transfer that is first there with no conflict is the present tick; a thread that owns a full queue waits, and so does one for which the tracker has no room. -/
def Sys2Proof.Claims.DmaIssue : Prop :=
  ∀ (s : State) (c : CoreId) (t : Thr) (ra rb : Reg) (h p : Word) (d : Desc), MayIssue s c t {} → s.greg c t ra = ⟨h, .hnd⟩ → hndKind h = 5 →
    let k := s.coreAt c.val
    let ch := hndIndex h
    let e := s.env c.val
    (k.ownerFull e t.val (2 + ch) = true →
      exec (.dmago c t ra rb) s = .next (s.after c fun k => k.updThread t.val fun th => { th with st := .wait, wcause := .queueFull, waitOp := some (.dmago ra.val rb.val) })) ∧
    (k.ownerFull e t.val (2 + ch) = false → s.greg c t rb = ⟨p, .ptr⟩ → ptrAddr p % 8 = 0 → ptrRange p 96 false = true →
      readDesc k.spad (ptrAddr p).toNat 12 = .ok d → dmaChecks e k t.val ch (ptrAddr p).toNat (s.thrOf c t).smode d = .ok () →
      (2 ≤ k.trkFree → exec (.dmago c t ra rb) s = .next (s.retired c t fun k =>
        (k.push (2 + ch) (d ++ [pack [(encDmago ra.val rb.val, 0, 32), (b2n (s.thrOf c t).smode, 32, 1)]]) (dmaRanges e k d)).noteHead e ch)) ∧
      (k.trkFree < 2 → exec (.dmago c t ra rb) s = .next (s.after c fun k =>
        k.updThread t.val fun th => { th with st := .wait, wcause := .trkFull, waitOp := some (.dmago ra.val rb.val) })))

/-- R315, Table 9-5: DMAABORT begins the abort of the transfer at the head of the channel, with cause 1 when none of its bursts is under way; on a parked channel it waits for the unpark, and it has no effect when no transfer is at the head, on a halted channel, and on a transfer that aborts already or has started its last burst. -/
def Sys2Proof.Claims.DmaAbortInstruction : Prop :=
  ∀ (s : State) (c : CoreId) (t : Thr) (ra : Reg) (h : Word), MayIssue s c t {} → s.greg c t ra = ⟨h, .hnd⟩ → hndKind h = 5 →
    let k := s.coreAt c.val
    let ch := hndIndex h
    (headTransfer k ch = none → exec (.dmaabort c t ra) s = .next (s.retired c t id)) ∧
    ((k.dma ch).eng.halt = true → exec (.dmaabort c t ra) s = .next (s.retired c t id)) ∧
    (headTransfer k ch ≠ none → (k.dma ch).eng.halt = false → (k.dma ch).eng.parked = true →
      exec (.dmaabort c t ra) s = .next (s.retired c t fun k => k.setDma ch { k.dma ch with abpend := true })) ∧
    (∀ q, headTransfer k ch = some q → (k.dma ch).eng.halt = false → (k.dma ch).eng.parked = false →
      ((∃ r, (k.dma ch).run = some r ∧ (r.abort.isSome = true ∨ r.started = q.desc.total)) → exec (.dmaabort c t ra) s = .next (s.retired c t id)) ∧
      ((∀ r, (k.dma ch).run = some r → r.abort = none ∧ r.started ≠ q.desc.total) →
        ∃ (k1 : Core) (em : List Emit), exec (.dmaabort c t ra) s = .next ((s.after c fun _ => k1.retire t.val).applyEmits c.val em) ∧
          (((k1.dma ch).run.bind DmaRun.abort).isSome = true) ∧ k1.thr = k.thr ∧
          ((∀ r, (k.dma ch).run = some r → r.bursts = []) → (k1.dma ch).run.bind DmaRun.abort = some 1 ∧ k1.spad = k.spad)))

/-- DMAGO and DMAABORT: DmaIssue and DmaAbortInstruction together. -/
def Obligations.DmaInstructions : Prop :=
  Sys2Proof.Claims.DmaIssue ∧ Sys2Proof.Claims.DmaAbortInstruction

/-! ## Engine queues -/

/-- R241, R51 to R53: an MXE word that names no memory enters MXE.Q with its captured tags when the thread owns the queue, it has room and the tile checks pass, and the tag settings take effect at issue. -/
def Sys2Proof.Machine.mxeEntered (s : State) (c : CoreId) (t : Thr) (iw : Nat) (k : MxeIssue) : State :=
  s.retired c t fun core =>
    ({ core with mxe := { k.mxe with sri := core.mxe.sri + BitVec.ofNat 64 ((k.sr.getD 0 + 7) / 8) } } : Core).push 0
      [pack [(iw, 0, 32), (encTag k.t1, 32, 16), (encTag k.t2, 48, 16)],
       pack [(0, 0, 24), (if k.sr.isSome then core.mxe.srs.toNat else 0, 32, 32)], pack [(0, 0, 39), (encTag k.t3, 48, 16)],
       if k.sr.isSome then core.mxe.sri else 0] []

/-- The MXE words without a memory operand, each with its encoding (Table 7-3). -/
def Sys2Proof.Machine.mxeWords (c : CoreId) (t : Thr) (ad : Fin 4) (ta tb : Fin 8) (m1 n1 k1 : Fin 32) (z kh u : Bool) (dst src : Fin 16) (cv : Fin 8)
    (sr ovn h dir : Bool) (v row : Fin 32) (c1 : Fin 64) (ty : Fin 8) : List (Instr × Nat) :=
  [(.tmma c t ad ta tb m1 n1 k1 z kh u, encTmma ad.val ta.val tb.val m1.val n1.val k1.val z kh u),
   (.tmov c t dst src cv sr ovn h, encTmov dst.val src.val cv.val sr ovn h), (.tmovv c t dst v row dir, encTmovv dst.val v.val row.val dir),
   (.tinit c t dst m1 c1 ty, encTinit dst.val m1.val c1.val ty.val), (.trel c t ta, encTrel ta.val), (.arel c t ad, encTrel (8 + ad.val))]

/-- R51 to R53, R239 to R256: TMMA, TMOV, TMOVV, TINIT, TREL and AREL are illegal on a V-core and in the forms that Table 7-3 excludes; else they wait while the thread's own queue is full, are the ownership fault for a thread that does not own it, and enter MXE.Q with their captured tags when the tile checks pass, whose fault they take when not. -/
def Sys2Proof.Claims.MatrixIssue : Prop :=
  ∀ (s : State) (c : CoreId) (t : Thr) (ad : Fin 4) (ta tb : Fin 8) (m1 n1 k1 : Fin 32) (z kh u : Bool) (dst src : Fin 16) (cv : Fin 8)
    (sr ovn h dir : Bool) (v row : Fin 32) (c1 : Fin 64) (ty : Fin 8), MayIssue s c t {} →
    ∀ p ∈ mxeWords c t ad ta tb m1 n1 k1 z kh u dst src cv sr ovn h dir v row c1 ty, let core := s.coreAt c.val
      (mxeIllegal (s.env c.val).vcore p.2 = true → exec p.1 s = .next (s.faulted c t { code := 0x10, addr := pcWord (s.thrOf c t).pc })) ∧
      (mxeIllegal (s.env c.val).vcore p.2 = false →
        (core.owner (s.env c.val) 0 = some t.val → 32 ≤ core.mxe.eng.q.length → exec p.1 s = .next (s.after c fun k => k.updThread t.val fun th =>
          { th with st := .wait, wcause := .queueFull, waitOp := some (.queue p.2) })) ∧
        (core.owner (s.env c.val) 0 ≠ some t.val → exec p.1 s = .next (s.faulted c t { code := 0x19, sub := 0 })) ∧
        (core.owner (s.env c.val) 0 = some t.val → core.mxe.eng.q.length < 32 →
          (∀ ev, mxeCheck core.mxe p.2 1 = .error ev → exec p.1 s = .next (s.faulted c t ev)) ∧
          (∀ k, mxeCheck core.mxe p.2 1 = .ok k → exec p.1 s = .next (mxeEntered s c t p.2 k))))

/-- R199, R240, R248, R250: TLOAD and TSTORE enter MXE.Q when address and pitch are 4-aligned (not asked of the block modes of TLOAD) and the tile checks pass: through a PTR with the tracker range of their extent, which is inside the PTR and permitted, and through a ring-relative INT, whose pitch is not negative, with the range of the whole ring. -/
def Sys2Proof.Claims.MatrixMemory : Prop :=
  ∀ (s : State) (c : CoreId) (t : Thr) (dst : Fin 16) (ra rb : Reg) (mode cb : Fin 4) (r1 : Fin 32) (ty fmt : Fin 8) (sr ovn : Bool) (p b : Word) (k : MxeIssue),
    MayIssue s c t {} → s.greg c t rb = tint b →
    (s.coreAt c.val).owner (s.env c.val) 0 = some t.val → (s.coreAt c.val).mxe.eng.q.length < 32 → 1 ≤ (s.coreAt c.val).trkFree →
    ∀ x ∈ [(Instr.tload c t dst ra rb mode r1 ty cb, encTload dst.val ra.val rb.val mode.val r1.val ty.val cb.val, false),
        (.tstore c t dst ra rb fmt r1 sr ovn, encTstore dst.val ra.val rb.val fmt.val r1.val sr ovn, true)],
      let core := s.coreAt c.val
      let iw := x.2.1
      let pitch := sextNat (b.toNat % 2 ^ 32) 32
      let enters (field : Nat) (range : Bool × Nat × Nat × Bool) : Prop := exec x.1 s = .next (s.retired c t fun core =>
        ({ core with mxe := { k.mxe with sri := core.mxe.sri + BitVec.ofNat 64 ((k.sr.getD 0 + 7) / 8) } } : Core).push 0
          [pack [(iw, 0, 32), (encTag k.t1, 32, 16), (encTag k.t2, 48, 16)],
           pack [(field, 0, 24), (if k.sr.isSome then core.mxe.srs.toNat else 0, 32, 32)],
           pack [(fld b 0 39, 0, 39), (encTag k.t3, 48, 16)], if k.sr.isSome then core.mxe.sri else 0] [range])
      mxeIllegal (s.env c.val).vcore iw = false → mxeCheck core.mxe iw (fld b 32 7 + 1) = .ok k →
      (let ext := mxeExtent core.mxe iw (fld b 32 7 + 1) (ptrAddr p) pitch
       s.greg c t ra = ⟨p, .ptr⟩ → (x.2.2 = true ∨ mode ≠ 3 → ptrAddr p % 4 = 0 ∧ pitch % 4 = 0) → (if x.2.2 then ptrW p else ptrR p) = true →
       ptrCovers p ext.1 ext.2 = true → enters (ptrAddr p % 8388608).toNat (true, ext.1.toNat, ext.2, x.2.2)) ∧
      (let ring := core.ringAt (p.toNat / 2 ^ 19 % 16)
       s.greg c t ra = tint p → p.getLsbD 23 = true → (x.2.2 = true ∨ mode ≠ 3 → p.toNat % 4 = 0 ∧ pitch % 4 = 0) → 0 ≤ pitch →
       enters (p.toNat % 2 ^ 24) (true, ring.base * 128, ring.size * 128, x.2.2))

/-- R236, R244, R255, R256: the tags that MXE words set at issue. TINIT gives its tile the stated type and size, TREL and AREL make theirs EMPTY; TMMA needs its two operand tiles of a pairing of Table 7-5 and large enough, takes an EMPTY accumulator only with Z and makes it 32 by 32 of the result type, and leaves every other tag. -/
def Sys2Proof.Claims.TileTags : Prop :=
  ∀ (m : Mxe) (sel : Nat) (r1 c1 ty ad ta tb m1 n1 k1 : Nat) (z kh u : Bool) (k : MxeIssue), sel < 12 → r1 < 32 → c1 < 64 → ty < 8 → ad < 4 → ta < 8 → tb < 8 →
    m1 < 32 → n1 < 32 → k1 < 32 →
    (mxeCheck m (encTinit sel r1 c1 ty) 1 = .ok k → k.mxe.tagOf sel = some ⟨ty, r1 + 1, c1 + 1⟩ ∧ (∀ q, q ≠ sel → k.mxe.tagOf q = m.tagOf q)) ∧
    (∃ j, mxeCheck m (encTrel sel) 1 = .ok j ∧ j.mxe.tagOf sel = none ∧ ∀ q, q ≠ sel → j.mxe.tagOf q = m.tagOf q) ∧
    (mxeCheck m (encTmma ad ta tb m1 n1 k1 z kh u) 1 = .ok k →
      ∃ a b d rt, m.tagOf ta = some a ∧ m.tagOf tb = some b ∧ k.mxe.tagOf (8 + ad) = some d ∧ tmmaType a.ty b.ty = some rt ∧ d.ty = rt ∧
        m1 < a.r ∧ k1 + 32 * b2n kh < a.c ∧ k1 < b.r ∧ n1 < b.c ∧ m1 < d.r ∧ n1 < d.c ∧ (m.tagOf (8 + ad) = none → z = true ∧ d = ⟨rt, 32, 32⟩) ∧
        (∀ q, q ≠ 8 + ad → k.mxe.tagOf q = m.tagOf q))

/-- MXE words: their entry into the queue, their ranges, and the tile tags that they set at issue: MatrixIssue, MatrixMemory and TileTags together. -/
def Obligations.MatrixInstructions : Prop :=
  Sys2Proof.Claims.MatrixIssue ∧ Sys2Proof.Claims.MatrixMemory ∧ Sys2Proof.Claims.TileTags

/-- The VXE words of majors 0x38 and 0x39 that take no scalar operand, each with its encoding (Table 8-2). -/
def Sys2Proof.Machine.vxeFloatWords (c : CoreId) (t : Thr) (vd va vb vc : Fin 32) (rm : Fin 8) : List (Instr × Nat) :=
  let f3 (k fn : Nat) : Nat := encV38 vd.val va.val vb.val k fn
  let f2 (k fn : Nat) : Nat := encV38 vd.val va.val 0 k fn
  let g (fn : Nat) : Nat := encV39 vd.val va.val vb.val vc.val rm.val fn
  [(Instr.vadd c t vd va vb rm, f3 rm.val 0), (Instr.vsub c t vd va vb rm, f3 rm.val 1), (Instr.vmul c t vd va vb rm, f3 rm.val 2), (Instr.vdiv c t vd va vb rm, f3 rm.val 3),
   (Instr.vsqrt c t vd va rm, f2 rm.val 4), (Instr.vmin c t vd va vb, f3 0 5), (Instr.vmax c t vd va vb, f3 0 6), (Instr.vminn c t vd va vb, f3 0 7), (Instr.vmaxn c t vd va vb, f3 0 8),
   (Instr.vceq c t vd va vb, f3 0 9), (Instr.vclt c t vd va vb, f3 0 10), (Instr.vcle c t vd va vb, f3 0 11), (Instr.vneg c t vd va, f2 0 12), (Instr.vabs c t vd va, f2 0 13),
   (Instr.vcpys c t vd va vb, f3 0 14), (Instr.vexp2 c t vd va, f2 0 16), (Instr.vlog2 c t vd va, f2 0 17), (Instr.vrcp c t vd va, f2 0 18), (Instr.vrsq c t vd va, f2 0 19),
   (Instr.vfma c t vd va vb vc rm, g 0), (Instr.vfms c t vd va vb vc rm, g 1), (Instr.vfnma c t vd va vb vc rm, g 2), (Instr.vfnms c t vd va vb vc rm, g 3)]

/-- The VXE words of major 0x3A. -/
def Sys2Proof.Machine.vxeIntWords (c : CoreId) (t : Thr) (vd va vb : Fin 32) (w : Fin 4) : List (Instr × Nat) :=
  let i (fn : Nat) : Nat := encV3A vd.val va.val vb.val w.val fn
  [(Instr.viadd c t vd va vb w, i 0), (Instr.visub c t vd va vb w, i 1), (Instr.viadds c t vd va vb w, i 2), (Instr.visubs c t vd va vb w, i 3), (Instr.vimul c t vd va vb w, i 4),
   (Instr.vimulh c t vd va vb w, i 5), (Instr.vimin c t vd va vb w, i 6), (Instr.vimax c t vd va vb w, i 7), (Instr.viminu c t vd va vb w, i 8), (Instr.vimaxu c t vd va vb w, i 9),
   (Instr.vand c t vd va vb w, i 10), (Instr.vor c t vd va vb w, i 11), (Instr.vxor c t vd va vb w, i 12), (Instr.vshl c t vd va vb w, i 13), (Instr.vshr c t vd va vb w, i 14),
   (Instr.vsra c t vd va vb w, i 15), (Instr.viceq c t vd va vb w, i 16), (Instr.viclt c t vd va vb w, i 17), (Instr.vicltu c t vd va vb w, i 18), (Instr.vbsl c t vd va vb w, i 19),
   (Instr.viabs c t vd va w, encV3A vd.val va.val 0 w.val 20)]

/-- The VXE words of major 0x3B without a scalar operand. -/
def Sys2Proof.Machine.vxeConvWords (c : CoreId) (t : Thr) (vd va : Fin 32) (rm : Fin 8) (part : Fin 4) (sr ovn : Bool) : List (Instr × Nat) :=
  let cv (n p r : Nat) : Nat := encV3B vd.val va.val 0 n p r false false
  [(Instr.vcvtDf16 c t vd va part sr ovn, encV3B vd.val va.val 0 0 part.val 0 sr ovn), (Instr.vcvtDf8 c t vd va part sr ovn, encV3B vd.val va.val 0 1 part.val 0 sr ovn),
   (Instr.vcvtFDf16 c t vd va part, cv 2 part.val 0), (Instr.vcvtFDf8 c t vd va part, cv 3 part.val 0), (Instr.vcvtI32 c t vd va rm, cv 4 0 rm.val),
   (Instr.vcvtFI32 c t vd va rm, cv 5 0 rm.val), (Instr.vcvtI32I16 c t vd va part, cv 6 part.val 0), (Instr.vcvtI16 c t vd va part, cv 7 part.val 0),
   (Instr.vcvtI32Di8 c t vd va part, cv 8 part.val 0), (Instr.vcvtDi8 c t vd va part, cv 9 part.val 0), (Instr.vgexp c t vd va, cv 14 0 0)]

/-- The VXE words of major 0x3D without a scalar operand. -/
def Sys2Proof.Machine.vxeMoveWords (c : CoreId) (t : Thr) (vd va vb : Fin 32) (rm : Fin 8) (uni : Bool) (imm : Fin 64) : List (Instr × Nat) :=
  let d3 (fn : Nat) : Nat := encV3D vd.val va.val vb.val fn 0
  [(Instr.vperm c t vd va vb, d3 0), (Instr.vrot c t vd va imm, encV3D vd.val va.val 0 1 imm.val), (Instr.vbcl c t vd va imm, encV3D vd.val va.val 0 2 imm.val),
   (Instr.vzipl c t vd va vb, d3 4), (Instr.vziph c t vd va vb, d3 5), (Instr.vuzpe c t vd va vb, d3 6), (Instr.vuzpo c t vd va vb, d3 7),
   (Instr.vhaddF c t vd va rm, encV3D vd.val va.val 0 8 rm.val), (Instr.vhmaxF c t vd va, encV3D vd.val va.val 0 9 0), (Instr.vhminF c t vd va, encV3D vd.val va.val 0 10 0),
   (Instr.vhaddI32 c t vd va, encV3D vd.val va.val 0 11 0), (Instr.vhmaxI32 c t vd va, encV3D vd.val va.val 0 12 0), (Instr.vhaddI64 c t vd va, encV3D vd.val va.val 0 13 0),
   (Instr.vrng c t vd uni, encV3D vd.val 0 0 14 (b2n uni))]

/-- The VXE words that take no scalar operand. -/
def Sys2Proof.Machine.vxeWords (c : CoreId) (t : Thr) (vd va vb vc : Fin 32) (rm : Fin 8) (w part : Fin 4) (sr ovn uni : Bool) (imm : Fin 64) : List (Instr × Nat) :=
  vxeFloatWords c t vd va vb vc rm ++ vxeIntWords c t vd va vb w ++ vxeConvWords c t vd va rm part sr ovn ++ vxeMoveWords c t vd va vb rm uni imm

/-- The record with which a VXE word enters VXE.Q (Table 8-11): it captures the modes, and the random index when it draws. -/
def Sys2Proof.Machine.vxeEntered (s : State) (c : CoreId) (t : Thr) (iw addr : Nat) (rb : Word) (ranges : List (Bool × Nat × Nat × Bool)) : State :=
  s.retired c t fun k =>
    ({ k with vxe := { k.vxe with sri := k.vxe.sri + BitVec.ofNat 64 ((vxeDraws iw).getD 0) } } : Core).push 1 (vxeRecord k.vxe iw (s.thrOf c t).pc addr rb) ranges

/-- R51 to R53, R273 to R283: VXE words that take no scalar operand enter VXE.Q when they are legal, the thread owns the queue and it has room; an illegal one is the illegal instruction fault, a full queue a wait, a queue not owned the ownership fault. -/
def Sys2Proof.Claims.VectorIssue : Prop :=
  ∀ (s : State) (c : CoreId) (t : Thr) (vd va vb vc : Fin 32) (rm : Fin 8) (w part : Fin 4) (sr ovn uni : Bool) (imm : Fin 64), MayIssue s c t {} →
    ∀ p ∈ vxeWords c t vd va vb vc rm w part sr ovn uni imm, let core := s.coreAt c.val
      (vxeIllegal core.vxe.rm.toNat p.2 = true → exec p.1 s = .next (s.faulted c t { code := 0x10, addr := pcWord (s.thrOf c t).pc })) ∧
      (vxeIllegal core.vxe.rm.toNat p.2 = false →
        (core.owner (s.env c.val) 1 = some t.val → 32 ≤ core.vxe.eng.q.length → exec p.1 s = .next (s.after c fun k => k.updThread t.val fun th =>
          { th with st := .wait, wcause := .queueFull, waitOp := some (.queue p.2) })) ∧
        (core.owner (s.env c.val) 1 ≠ some t.val → exec p.1 s = .next (s.faulted c t { code := 0x19, sub := 1 })) ∧
        (core.owner (s.env c.val) 1 = some t.val → core.vxe.eng.q.length < 32 → exec p.1 s = .next (vxeEntered s c t p.2 0 0 [])))

/-- R278, R281: the VXE words with a scalar operand: the scale of VQNT and VDQ is an INT from -512 to 511, any other INT the bounds fault, and VSPLAT takes an INT, FLT or RAW word. -/
def Sys2Proof.Claims.VectorScalar : Prop :=
  ∀ (s : State) (c : CoreId) (t : Thr) (vd va : Fin 32) (rb : Reg) (rm : Fin 8) (part : Fin 4) (imm : Fin 64) (b : Word), MayIssue s c t {} →
    (s.coreAt c.val).owner (s.env c.val) 1 = some t.val → (s.coreAt c.val).vxe.eng.q.length < 32 →
    (s.greg c t rb = tint b →
      ∀ p ∈ [(Instr.vqnt32 c t vd va rb, encV3B vd.val va.val rb.val 10 0 0 false false), (.vqnt64 c t vd va rb part, encV3B vd.val va.val rb.val 11 part.val 0 false false),
          (.vdq32 c t vd va rb rm, encV3B vd.val va.val rb.val 12 0 rm.val false false), (.vdq64 c t vd va rb part rm, encV3B vd.val va.val rb.val 13 part.val rm.val false false)],
        vxeIllegal (s.coreAt c.val).vxe.rm.toNat p.2 = false →
          (-512 ≤ b.toInt → b.toInt ≤ 511 → exec p.1 s = .next (vxeEntered s c t p.2 0 b [])) ∧
          ((b.toInt < -512 ∨ 511 < b.toInt) → exec p.1 s = .next (s.faulted c t { code := 0x16, addr := Config.xaddrNoEa b 0 }))) ∧
    (imm.val ≤ 3 → s.greg c t rb = tint b ∨ s.greg c t rb = tflt b ∨ s.greg c t rb = traw b →
      exec (.vsplat c t vd rb imm) s = .next (vxeEntered s c t (encV3D vd.val 0 rb.val 3 imm.val) 0 b []))

/-- R199, R284, R285: VLD, VLDS, VST and VRED.ROWS enter VXE.Q when address and pitch are 4-aligned: through a PTR with the tracker range of their extent, which is inside the PTR and permitted, and through a ring-relative INT, whose pitch is not negative, with the range of the whole ring. -/
def Sys2Proof.Claims.VectorMemory : Prop :=
  ∀ (s : State) (c : CoreId) (t : Thr) (vd x : Fin 32) (ra rb : Reg) (op : Fin 8) (z : Bool) (p b : Word), MayIssue s c t {} →
    (s.coreAt c.val).owner (s.env c.val) 1 = some t.val → (s.coreAt c.val).vxe.eng.q.length < 32 → 1 ≤ (s.coreAt c.val).trkFree →
    s.greg c t rb = tint b → op.val ≤ 5 → let pitch := sextNat (b.toNat % 2 ^ 32) 32
    pitch % 4 = 0 →
    ∀ y ∈ [(Instr.vld c t vd ra, encV3C vd.val ra.val 0 0 0, (0 : Word), false), (.vlds c t vd ra rb, encV3C vd.val ra.val rb.val 1 0, b, false),
        (.vst c t vd ra x, encV3C vd.val ra.val 0 2 x.val, 0, true), (.vredRows c t vd ra rb op z, encV3C vd.val ra.val rb.val 3 (op.val * 32 + b2n z * 16), b, false)],
      (let ext := vxeExtent y.2.1 (ptrAddr p) y.2.2.1
       s.greg c t ra = ⟨p, .ptr⟩ → ptrAddr p % 4 = 0 → (if y.2.2.2 then ptrW p else ptrR p) = true → ptrCovers p ext.1 ext.2 = true →
       exec y.1 s = .next (vxeEntered s c t y.2.1 (ptrAddr p % 8388608).toNat y.2.2.1 [(true, ext.1.toNat, ext.2, y.2.2.2)])) ∧
      (let ring := (s.coreAt c.val).ringAt (p.toNat / 2 ^ 19 % 16)
       s.greg c t ra = tint p → p.getLsbD 23 = true → p.toNat % 4 = 0 → 0 ≤ pitch →
       exec y.1 s = .next (vxeEntered s c t y.2.1 (p.toNat % 2 ^ 24) y.2.2.1 [(true, ring.base * 128, ring.size * 128, y.2.2.2)]))

/-- VXE words: their entry into the queue, scalar operands and ranges: VectorIssue, VectorScalar and VectorMemory together. -/
def Obligations.VectorInstructions : Prop :=
  Sys2Proof.Claims.VectorIssue ∧ Sys2Proof.Claims.VectorScalar ∧ Sys2Proof.Claims.VectorMemory

/-- Decoding agrees with encoding for the engine words that a queue keeps (Tables 7-3, 8-2): every field read back from an encoded word is the field it was made of, at every value that its width admits. -/
def Obligations.EngineWordsRoundTrip : Prop :=
  (∀ (ad : Fin 4) (ta tb : Fin 8) (m1 n1 k1 : Fin 32) (z kh u : Bool), let w := encTmma ad.val ta.val tb.val m1.val n1.val k1.val z kh u
    major w = 0x30 ∧ nf w 24 2 = ad.val ∧ nf w 21 3 = ta.val ∧ nf w 18 3 = tb.val ∧ nf w 13 5 = m1.val ∧ nf w 8 5 = n1.val ∧ nf w 3 5 = k1.val ∧
    nf w 2 1 = b2n z ∧ nf w 1 1 = b2n kh ∧ nf w 0 1 = b2n u ∧ w < 2 ^ 32) ∧
  (∀ (dst : Fin 16) (ra rb : Reg) (mode cb : Fin 4) (r1 : Fin 32) (ty : Fin 8), let w := encTload dst.val ra.val rb.val mode.val r1.val ty.val cb.val
    major w = 0x31 ∧ nf w 22 4 = dst.val ∧ nf w 17 5 = ra.val ∧ nf w 12 5 = rb.val ∧ nf w 10 2 = mode.val ∧ nf w 5 5 = r1.val ∧ nf w 2 3 = ty.val ∧
    nf w 0 2 = cb.val ∧ w < 2 ^ 32) ∧
  (∀ (src : Fin 16) (ra rb : Reg) (fmt : Fin 8) (r1 : Fin 32) (sr ovn : Bool), let w := encTstore src.val ra.val rb.val fmt.val r1.val sr ovn
    major w = 0x32 ∧ nf w 22 4 = src.val ∧ nf w 17 5 = ra.val ∧ nf w 12 5 = rb.val ∧ nf w 9 3 = fmt.val ∧ nf w 8 1 = b2n sr ∧ nf w 7 1 = b2n ovn ∧
    nf w 2 5 = r1.val ∧ nf w 0 2 = 0 ∧ w < 2 ^ 32) ∧
  (∀ (dst src : Fin 16) (cv : Fin 8) (sr ovn h : Bool), let w := encTmov dst.val src.val cv.val sr ovn h
    major w = 0x33 ∧ nf w 22 4 = dst.val ∧ nf w 18 4 = src.val ∧ nf w 15 3 = cv.val ∧ nf w 14 1 = b2n sr ∧ nf w 13 1 = b2n ovn ∧ nf w 12 1 = b2n h ∧
    nf w 0 12 = 0 ∧ w < 2 ^ 32) ∧
  (∀ (tile : Fin 16) (v row : Fin 32) (dir : Bool) (r1 : Fin 32) (c1 : Fin 64) (ty : Fin 8),
    let w := encTmovv tile.val v.val row.val dir
    let x := encTinit tile.val r1.val c1.val ty.val
    let y := encTrel tile.val
    major w = 0x34 ∧ nf w 22 4 = tile.val ∧ nf w 17 5 = v.val ∧ nf w 12 5 = row.val ∧ nf w 11 1 = b2n dir ∧ w < 2 ^ 32 ∧
    major x = 0x35 ∧ nf x 22 4 = tile.val ∧ nf x 17 5 = r1.val ∧ nf x 11 6 = c1.val ∧ nf x 8 3 = ty.val ∧ x < 2 ^ 32 ∧
    major y = 0x36 ∧ nf y 22 4 = tile.val ∧ nf y 0 22 = 0 ∧ y < 2 ^ 32) ∧
  (∀ (vd va vb vc : Fin 32) (rm : Fin 8) (fn : Fin 256) (w : Fin 4) (cv : Fin 16) (part : Fin 4) (sr ovn : Bool) (x : Fin 256) (imm : Fin 64) (f9 : Fin 512),
    let a := encV38 vd.val va.val vb.val rm.val fn.val
    let b := encV39 vd.val va.val vb.val vc.val rm.val (fn.val % 8)
    let d := encV3A vd.val va.val vb.val w.val f9.val
    let e := encV3B vd.val va.val vb.val cv.val part.val rm.val sr ovn
    let f := encV3C vd.val va.val vb.val (fn.val % 8) x.val
    let g := encV3D vd.val va.val vb.val (fn.val % 32) imm.val
    (∀ p ∈ [(a, 0x38), (b, 0x39), (d, 0x3A), (e, 0x3B), (f, 0x3C), (g, 0x3D)],
      major p.1 = p.2 ∧ nf p.1 21 5 = vd.val ∧ nf p.1 16 5 = va.val ∧ nf p.1 11 5 = vb.val ∧ p.1 < 2 ^ 32) ∧
    nf a 8 3 = rm.val ∧ nf a 0 8 = fn.val ∧ nf b 6 5 = vc.val ∧ nf b 3 3 = rm.val ∧ nf b 0 3 = fn.val % 8 ∧ nf d 9 2 = w.val ∧ nf d 0 9 = f9.val ∧
    nf e 7 4 = cv.val ∧ nf e 5 2 = part.val ∧ nf e 4 1 = b2n sr ∧ nf e 3 1 = b2n ovn ∧ nf e 0 3 = rm.val ∧
    nf f 8 3 = fn.val % 8 ∧ nf f 0 8 = x.val ∧ nf g 6 5 = fn.val % 32 ∧ nf g 0 6 = imm.val)

/-- R271, R275: when an elementwise command of major 0x38 that raises no enabled exception completes, each lane of vd holds the operation's result on the lanes of va and vb, the other registers and every scratchpad byte are as before, and the command has left the queue. -/
def Sys2Proof.Claims.VectorLanes : Prop :=
  ∀ (s : State) (c : CoreId) (vd va vb : Fin 32) (fn : Nat) (pc : BitVec 16) (q : List QEnt) (seq key : Nat) (cb : List (Nat × Word)), fn ≤ 14 → fn ≠ 4 → fn ≠ 12 → fn ≠ 13 →
    s.dead = false → s.pins.throttle = false → let k := s.coreAt c.val
    let iw := encV38 vd.val va.val vb.val 0 fn
    k.held = false → k.vxe.eng.parked = false → k.vxe.eng.parkReq = false → k.vxe.eng.halt = false → k.vxe.te = 0 → k.vxe.v.wf = true → k.rings = [] →
    k.vxe.eng.q = { qw := vxeRecord k.vxe iw pc 0 0, seq := seq, started := true, key := key, cb := cb } :: q →
    ∃ s', exec (.engineCommandComplete c 1) s = .next s' ∧ s' = s.setCore c.val (s'.coreAt c.val) ∧ (s'.coreAt c.val).vxe.eng.q = q ∧
      (s'.coreAt c.val).spad = k.spad ∧ (s'.coreAt c.val).thr = k.thr ∧
      (∀ i, i < 32 → (s'.coreAt c.val).vxe.lane vd.val 0 4 i = (v38 .ties fn (k.vxe.lane va.val 0 4 i) (k.vxe.lane vb.val 0 4 i)).1 % 2 ^ 32) ∧
      (∀ r j, r ≠ vd.val → j < 128 → rdByte (s'.coreAt c.val).vxe.v (128 * r + j) = rdByte k.vxe.v (128 * r + j))

/-- R291: VXE_DEFAULT on a VXE that halted for an IEEE trap ends the halt and completes the command at the head as if no trap were enabled: each lane of vd holds the default result of an elementwise command of major 0x38, the other registers and every scratchpad byte are as before, and the command has left the queue. -/
def Sys2Proof.Claims.VectorDefault : Prop :=
  ∀ (s : State) (c : CoreId) (vd va vb : Fin 32) (fn : Nat) (pc : BitVec 16) (q : List QEnt) (seq key : Nat) (cb : List (Nat × Word)), fn ≤ 14 → fn ≠ 4 → fn ≠ 12 → fn ≠ 13 → let k := s.coreAt c.val
    let iw := encV38 vd.val va.val vb.val 0 fn
    k.held = false → k.vxe.eng.halt = true → k.vxe.eng.hcause = 3 → k.vxe.eng.srow = 0 → k.vxe.v.wf = true → k.rings = [] →
    k.vxe.eng.q = { qw := vxeRecord k.vxe iw pc 0 0, seq := seq, started := true, key := key, cb := cb } :: q →
    ∃ s', exec (.vxeDefault c) s = .next s' ∧ s' = s.setCore c.val (s'.coreAt c.val) ∧ (s'.coreAt c.val).vxe.eng = { k.vxe.eng with q := q, halt := false, hcause := 0, srow := 0 } ∧
      (s'.coreAt c.val).spad = k.spad ∧ (s'.coreAt c.val).thr = k.thr ∧
      (∀ i, i < 32 → (s'.coreAt c.val).vxe.lane vd.val 0 4 i = (v38 .ties fn (k.vxe.lane va.val 0 4 i) (k.vxe.lane vb.val 0 4 i)).1 % 2 ^ 32) ∧
      (∀ r j, r ≠ vd.val → j < 128 → rdByte (s'.coreAt c.val).vxe.v (128 * r + j) = rdByte k.vxe.v (128 * r + j))

/-- A completed elementwise VXE command, or one completed by DEFAULT, writes each lane of vd and nothing else: VectorLanes and VectorDefault together. -/
def Obligations.VectorCompletion : Prop :=
  Sys2Proof.Claims.VectorLanes ∧ Sys2Proof.Claims.VectorDefault

/-! ## Threads and cores as events -/

/-- R43 to R45, R76, R163, R526: START takes a thread in HALT to RUN at its entry address, in the mode of its START_S, or, in paced mode before T0, to a wait for T0; HALT stops a thread that is IDLE, or that stands in RUN or WAIT where an interrupt could be taken, and lets its unfinished instruction go; in a delay slot, in the shadow of a mode change, and while a far load or a SEND's payload read is out it waits for the boundary; PARK keeps the state that it leaves in PRIOR, and UNPARK goes back to it; each leaves a thread in any other state as it is. -/
def Sys2Proof.Claims.ThreadStates : Prop :=
  ∀ (s : State) (c : CoreId) (t : Thr), let k := s.coreAt c.val
    let th := s.thrOf c t
    let put (x : Thread) : Out := .next (s.after c fun k => k.setThread t.val x)
    let begun : Thread := { th with pc := th.entry, smode := th.startS, st := .run, wcause := .none, waitOp := none, slot := none, shadow := false,
                                    bmov := none, haltPend := false, wdtFrom := s.tb, wdtFired := false }
    k.held = false → t.val < (s.env c.val).nthr →
    (th.st = .halt → (k.pace.mode = false ∨ k.pace.tmask.getLsbD t.val = false ∨ k.pace.t0 ≤ s.tb) → exec (.thrStart c t) s = put begun) ∧
    (th.st = .halt → k.pace.mode = true → k.pace.tmask.getLsbD t.val = true → s.tb < k.pace.t0 →
      exec (.thrStart c t) s = put { begun with st := .wait, wcause := .pace, waitOp := some .paceStart }) ∧
    (th.st ≠ .halt → exec (.thrStart c t) s = .next (s.after c id)) ∧
    ((th.st = .idle ∨ th.slot = none ∧ th.shadow = false ∧ (th.st = .run ∨ th.st = .wait ∧ th.wcause ≠ .farLoad ∧ th.wcause ≠ .sendRead)) →
      exec (.thrHalt c t) s = .next (s.settled c fun k => (k.trkDropAll th.heldEnts).setThread t.val
        { th with st := .halt, wcause := .none, waitOp := none, bmov := none, place := none, haltPend := false })) ∧
    ((th.st = .run ∨ th.st = .wait) → (th.slot ≠ none ∨ th.shadow = true ∨ th.st = .wait ∧ (th.wcause = .farLoad ∨ th.wcause = .sendRead)) →
      exec (.thrHalt c t) s = .next (s.settled c fun k => k.setThread t.val { th with haltPend := true })) ∧
    (th.st = .halt ∨ th.st = .parked → exec (.thrHalt c t) s = .next (s.after c id)) ∧
    (th.st ≠ .parked → exec (.thrPark c t) s = put { th with st := .parked, prior := th.st, parkedByBit := false }) ∧
    (th.st = .parked → th.prior ≠ .run → exec (.thrUnpark c t) s = put { th with st := th.prior, parkedByBit := false }) ∧
    (th.st = .parked → th.prior = .run →
      exec (.thrUnpark c t) s = put (Thread.boundary { th with st := .run, parkedByBit := false, wdtFrom := s.tb, wdtFired := false })) ∧
    (th.st ≠ .parked → exec (.thrUnpark c t) s = .next (s.after c id))

/-- R140, R162, R163, R534: the timer fires once its compare value has been reached and then disarms; a watchdog window that has ended raises its fault in RUN and WAIT only; XSWI sets the software bit, XPEND's clear removes the bits named, and XST and XWDT take the fields of a write that the thread itself makes, or anyone while the thread is halted or parked. -/
def Sys2Proof.Claims.ThreadRegisterEvents : Prop :=
  ∀ (s : State) (c : CoreId) (n : Thr) (who : Option Thr) (v : Word), let k := s.coreAt c.val
    let th := s.thrOf c n
    let put (x : Thread) : Out := .next (s.after c fun k => k.setThread n.val x)
    k.held = false → n.val < (s.env c.val).nthr →
    (th.tmrEn = true → th.tmrTick ≤ s.tb → exec (.timerCompareFire c n) s = put { th with tmrEn := false, xpend := th.xpend ||| 4 }) ∧
    (th.tmrEn = false ∨ s.tb < th.tmrTick → exec (.timerCompareFire c n) s = .next (s.after c id)) ∧
    (th.wdtEn = true → th.wdtInt ≠ 0 → th.wdtFired = false → th.wdtFrom + 1024 * th.wdtInt.toNat ≤ s.tb →
      (th.st = .run ∨ th.st = .wait → exec (.watchdogExpiry c n) s =
        put { th with wdtFired := true, notices := th.notices ++ [{ code := 0x23, async := true }] }) ∧
      (th.st ≠ .run → th.st ≠ .wait → exec (.watchdogExpiry c n) s = put { th with wdtFired := true })) ∧
    (th.wdtEn = false ∨ th.wdtInt = 0 ∨ s.tb < th.wdtFrom + 1024 * th.wdtInt.toNat → exec (.watchdogExpiry c n) s = .next (s.after c id)) ∧
    exec (.xswiRaise c n) s = put { th with xpend := th.xpend ||| 8 } ∧
    exec (.xpendClear c n v) s = put { th with xpend := th.xpend &&& ~~~(v.setWidth 5) } ∧
    (who = some n ∨ th.st = .halt ∨ th.st = .parked →
      exec (.xstWrite c n who v) s = put { th with ml := v.extractLsb' 12 3, pml := v.extractLsb' 8 3, pmode := v.getLsbD 7, ds := v.getLsbD 6 } ∧
      exec (.xwdtWrite c n who v) s = put { th with wdtEn := v.getLsbD 63, wdtInt := v.extractLsb' 0 32, wdtFrom := s.tb, wdtFired := false }) ∧
    (who ≠ some n → th.st ≠ .halt → th.st ≠ .parked →
      exec (.xstWrite c n who v) s = .next (s.after c id) ∧ exec (.xwdtWrite c n who v) s = .next (s.after c id))

/-- Thread states and the thread registers that events and management writes change: ThreadStates, ThreadRegisterEvents and PendingHalt together. -/
def Obligations.ThreadEvents : Prop :=
  Sys2Proof.Claims.ThreadStates ∧ Sys2Proof.Claims.ThreadRegisterEvents ∧ Sys2Proof.Claims.PendingHalt

/-- R133, R135, R136, R156, R683: an interrupt whose level is above ML is taken at a boundary of a thread that is armed and not in its double fault handler: its XPEND bit clears and the thread enters at IRQV, or at 8 times the code in vectored mode, with the state saved; below ML, unarmed or in a delay slot nothing is taken. An asynchronous fault is the double fault when the thread is not armed. A place in issue order that the thread held goes, and the rings settle (R195). -/
def Sys2Proof.Claims.AsyncEntries : Prop :=
  ∀ (s : State) (c : CoreId) (t : Thr) (b : Fin 5), let k := s.coreAt c.val
    let th := s.thrOf c t
    let lvl := th.intrLevel b.val
    k.held = false → t.val < (s.env c.val).nthr → th.st = .run → th.waitOp = none → th.bmov = none → th.haltPend = false →
    (th.slot = none → th.shadow = false → th.notices = [] → th.xpend = BitVec.ofNat 5 (2 ^ b.val) →
      (th.arm = true → th.dfh = false → th.ml < lvl → exec (.asyncEventTaken c t) s = .next (s.settled c fun k => k.setThread t.val
        { th with xpend := 0, wcause := .none, place := none, xra := th.pc, pmode := th.smode, pml := th.ml, ds := false, ml := lvl, arm := false, smode := true,
                  xcause := BitVec.ofNat 64 (2 ^ 61 + b.val * 2 ^ 16 + 0x30 + lvl.toNat), xaddr := 0,
                  pc := if k.vecmode then BitVec.ofNat 16 (8 * (0x30 + lvl.toNat)) else k.irqv })) ∧
      (th.arm = false ∨ th.dfh = true ∨ lvl ≤ th.ml → exec (.asyncEventTaken c t) s = .next (s.after c id))) ∧
    (th.slot = none → th.shadow = false → th.xpend = 0 → th.notices = [{ code := 0x23, async := true }] → th.dfh = false → th.ml < 7 →
      (th.arm = true → exec (.asyncEventTaken c t) s = .next (s.settled c fun k => k.setThread t.val
        { th with notices := [], wcause := .none, place := none, xra := th.pc, pmode := th.smode, pml := th.ml, ds := false, ml := 7, arm := false, smode := true,
                  xcause := BitVec.ofNat 64 (2 ^ 61 + 0x23), xaddr := 0, pc := if k.vecmode then BitVec.ofNat 16 (8 * 0x23) else k.exv })) ∧
      (th.arm = false → exec (.asyncEventTaken c t) s = .next (s.settled c fun k => k.setThread t.val
        { th with notices := [], wcause := .none, place := none, dra := th.pc, dpmode := th.smode, dpml := th.ml, dds := false, dparm := false, ml := 7, arm := false,
                  dfh := true, smode := true, xcause := dfCause th.xcause 0x23, xaddr := 0, pc := if k.vecmode then BitVec.ofNat 16 (8 * 0x3F) else k.dfv }))) ∧
    (th.slot ≠ none ∨ th.shadow = true → exec (.asyncEventTaken c t) s = .next (s.after c id))

/-- R56 to R58, R365: with DISPEN set the oldest undispatched message of the ring whose endpoint has the highest handler level goes to the lowest-numbered idle thread that takes handlers: it gets the message's handle in g1 and its length in g2, the handler's address and mode, and both loop counts zero; with DISPEN clear, or no idle thread, nothing happens. R43, R327, R526: a thread that waits for a counter goes on once the counter is at least its target, and one started before T0 of paced mode begins at T0; a wait that still holds changes nothing. -/
def Sys2Proof.Claims.HandlersAndWaits : Prop :=
  ∀ (s : State) (c : CoreId) (t : Thr) (n : Nat) (m : RMsg), let k := s.coreAt c.val
    let th := s.thrOf c t
    k.held = false →
    (k.dispen = true → bestOffer k = some (n, m) → idleThread (s.env c.val) k = some t.val →
      let x := k.chiAt m.chi
      let h := mkHnd 6 n (m.pos * (if (k.ringAt n).slotKind then (k.ringAt n).slot else 1)) x.epoch.toNat
      ∃ th', exec (.handlerDispatch c) s = .next (s.after c fun k =>
          (k.setRing n { k.ringAt n with msgs := (k.ringAt n).msgs.map fun q => if q = m then { q with st := .held } else q }).setThread t.val th') ∧
        th'.st = .run ∧ th'.pc = x.haddr ∧ th'.smode = x.hmode ∧ th'.lc0 = 0 ∧ th'.lc1 = 0 ∧ th'.reg 1 = ⟨h, .hnd⟩ ∧ th'.reg 2 = tint (BitVec.ofNat 64 m.len) ∧
        th'.msg = some ⟨n, m.pos, m.epoch⟩ ∧ (∀ r, r ≠ 1 → r ≠ 2 → th'.reg r = th.reg r) ∧ th'.arm = th.arm ∧ th'.ml = th.ml ∧ th'.fsr = th.fsr) ∧
    (k.dispen = false ∨ bestOffer k = none ∨ idleThread (s.env c.val) k = none → exec (.handlerDispatch c) s = .next (s.after c id)) ∧
    (t.val < (s.env c.val).nthr → (th.st ≠ .wait ∨ th.waitOp = none) → exec (.waitConditionMet c t) s = .next (s.after c id)) ∧
    (t.val < (s.env c.val).nthr → th.st = .wait → th.waitOp = some .paceStart → (k.pace.mode = false ∨ k.pace.t0 ≤ s.tb) →
      exec (.waitConditionMet c t) s = .next (s.settled c fun k => k.setThread t.val { th with st := .run, wcause := .none, waitOp := none })) ∧
    (t.val < (s.env c.val).nthr → th.st = .wait → th.haltPend = false → th.slot = none → ∀ (n : Nat) (b : Word) (rb : Reg), n ≤ 47 → th.wcause = .counter →
      th.waitOp = some (.ctr (qWord 4 0 0 0 rb.val n)) → th.reg rb.val = tint b → k.scBroken n = false →
      (b.toNat ≤ (k.scAt n).toNat → exec (.waitConditionMet c t) s = .next (s.settled c fun k => k.updThread t.val fun th => th.ran.advance.boundary)) ∧
      ((k.scAt n).toNat < b.toNat → exec (.waitConditionMet c t) s = .next (s.after c id)))

/-- Interrupts taken at a boundary, handler dispatch, and waits that end: AsyncEntries and HandlersAndWaits together. -/
def Obligations.AsyncEventsAndHandlers : Prop :=
  Sys2Proof.Claims.AsyncEntries ∧ Sys2Proof.Claims.HandlersAndWaits

/-- R19, R51, R56, R74, R159, R684: CORE_PARK parks every enabled thread that is not parked yet and asks every engine to park; CORE_UNPARK lets go the engines and the threads that the bit parked; a debug halt, where the lifecycle and the lock allow it, notifies every thread (Table 4-2) and does the same by the threads' own parking; DISPEN, LOCK and QOWN take their values, and QOWN keeps its own once LOCK is set. -/
def Sys2Proof.Claims.CoreControl : Prop :=
  ∀ (s : State) (c : CoreId) (on : Bool) (v : BitVec 16), let k := s.coreAt c.val
    let nthr := (s.env c.val).nthr
    k.held = false →
    (∃ s', exec (.corePark c) s = .next s' ∧ s' = s.setCore c.val (s'.coreAt c.val) ∧ (s'.coreAt c.val).park = true ∧ (s'.coreAt c.val).spad = k.spad ∧
      (∀ q, q < 4 → (s'.coreAt c.val).eng q = { k.eng q with parkReq := true }) ∧
      (∀ t, t < nthr → (s'.coreAt c.val).thread t = if (k.thread t).st = .parked then k.thread t else
        { k.thread t with st := .parked, prior := (k.thread t).st, parkedByBit := true }) ∧
      (∀ t, nthr ≤ t → (s'.coreAt c.val).thread t = k.thread t)) ∧
    (s.debugAllowed 0 = false → exec (.debugHalt c) s = .next s) ∧
    (s.debugAllowed 0 = true → ∃ s', exec (.debugHalt c) s = .next s' ∧ s' = s.setCore c.val (s'.coreAt c.val) ∧ (s'.coreAt c.val).debug = true ∧ (s'.coreAt c.val).park = k.park ∧
      (∀ q, q < 4 → (s'.coreAt c.val).eng q = { k.eng q with parkReq := true }) ∧
      (∀ t, t < nthr → (s'.coreAt c.val).thread t = if (k.thread t).st = .parked then { k.thread t with xpend := (k.thread t).xpend ||| 16 } else
        { k.thread t with xpend := (k.thread t).xpend ||| 16, st := .parked, prior := (k.thread t).st, parkedByBit := false }) ∧
      (∀ t, nthr ≤ t → (s'.coreAt c.val).thread t = k.thread t)) ∧
    (k.dma0.run = none → k.dma1.run = none → k.dma0.abpend = false → k.dma1.abpend = false →
      ∃ s', exec (.coreUnpark c) s = .next s' ∧ s' = s.setCore c.val (s'.coreAt c.val) ∧ (s'.coreAt c.val).park = false ∧ (s'.coreAt c.val).debug = false ∧
      (∀ q, q < 4 → (s'.coreAt c.val).eng q = { k.eng q with parkReq := false, parked := false }) ∧
      (∀ t, t < nthr → ((k.thread t).st = .parked ∧ (k.thread t).parkedByBit = true → (k.thread t).haltPend = false →
          ((s'.coreAt c.val).thread t).st = (k.thread t).prior) ∧
        (¬((k.thread t).st = .parked ∧ (k.thread t).parkedByBit = true) → (s'.coreAt c.val).thread t = k.thread t))) ∧
    exec (.coreDispatchEnable c on) s = .next (s.after c fun k => { k with dispen := on }) ∧
    exec (.coreLock c) s = .next (s.after c fun k => { k with lock := true }) ∧
    (k.lock = true → exec (.qownWrite c v) s = .next (s.after c id)) ∧
    (k.lock = false → ∃ s', exec (.qownWrite c v) s = .next s' ∧ s' = s.setCore c.val (s'.coreAt c.val) ∧ (s'.coreAt c.val).qown = v ∧
      (∀ q, q < 4 → ((s'.coreAt c.val).eng q).q = (k.eng q).q ∧
        (((s'.coreAt c.val).owner (s.env c.val) q).isSome = true → ((s'.coreAt c.val).eng q).held = []) ∧
        ((s'.coreAt c.val).owner (s.env c.val) q = none → (s'.coreAt c.val).eng q = k.eng q)))

/-- R77, R96, R371 to R373, R649: core reset leaves every thread parked with its registers EMPTY, the scratchpad, tiles, vectors and instruction memory wiped, every queue, ring and tracker entry gone; each CHI's EPOCH is one more, each CHO is CLOSED with CCAUSE 5, the packets that waited for the core are gone, and the lines in which the core takes part, and no other, become broken (R346). Every other core, the stacks and the fuses are as before. -/
def Sys2Proof.Claims.CoreReset : Prop :=
  ∀ (s : State) (c : CoreId), ∃ s', exec (.coreReset c) s = .next s' ∧ let k := s'.coreAt c.val
    k.held = (s.coreAt c.val).held ∧ k.spad = {} ∧ k.imem = [] ∧ k.mxe = {} ∧ k.vxe = {} ∧ k.dma0 = {} ∧ k.dma1 = {} ∧ k.trk = {} ∧ k.lock = false ∧
    (∀ t, k.thread t = {}) ∧ (∀ n, k.ringAt n = {}) ∧ (∀ n, k.scAt n = 0 ∧ k.scBroken n = false) ∧
    (∀ n, n < 64 → k.choAt n = { ccause := 5 } ∧ k.chiAt n = { epoch := ((s.coreAt c.val).chiAt n).epoch + 1 }) ∧
    (∀ l, l ≠ c.val → s'.coreAt l = s.coreAt l) ∧ s'.hbm = s.hbm ∧ s'.fuses = s.fuses ∧
    (∀ m ∈ s'.svc.inbox, m.unit ≠ unitOf s.chipId c.val) ∧
    (∀ n, n < 8 → (s'.line n).brk = ((s.line n).brk || ((s.coreAt c.val).part.getLsbD n && (s.line n).isLocal)))

/-- R323, R347, R526, R535: SC_CLEAR and BGEN_CLEAR zero the counters and generations that their mask names and no other, and a cleared counter is no longer broken. MODE is set when the period, maintenance interval and TMASK are in range, with the paced counters from zero; a set out of range sets CERR; a set in paced mode has no effect, and clearing MODE with nothing held leaves only MODE changed. A boundary before its tick has no effect. -/
def Sys2Proof.Claims.CountersAndPace : Prop :=
  ∀ (s : State) (c : CoreId) (m : BitVec 48) (b : BitVec 8), let k := s.coreAt c.val
    k.held = false →
    (∃ s', exec (.scClear c m) s = .next s' ∧ s' = s.setCore c.val (s'.coreAt c.val) ∧ (s'.coreAt c.val).spad = k.spad ∧ (s'.coreAt c.val).thr = k.thr ∧
      ∀ n, n < 48 → (s'.coreAt c.val).scAt n = (if m.getLsbD n then 0 else k.scAt n) ∧ (s'.coreAt c.val).scBroken n = (k.scBroken n && !m.getLsbD n)) ∧
    (∃ s', exec (.bgenClear c b) s = .next s' ∧ s' = s.setCore c.val (s'.coreAt c.val) ∧ (s'.coreAt c.val).sc = k.sc ∧
      ∀ n, n < 8 → (s'.coreAt c.val).bgenAt n = (if b.getLsbD n then 0 else k.bgenAt n)) ∧
    (let p := k.pace
     let bad : Prop := p.per < 256 ∨ 1048576 < p.per ∨ (p.maint ≠ 0 ∧ (p.maint < 64 ∨ 4096 < p.maint)) ∨ (∃ t, t < 8 ∧ (s.env c.val).nthr ≤ t ∧ p.tmask.getLsbD t = true)
     (p.mode = true → exec (.paceModeSet c) s = .next (s.after c id)) ∧
     (p.mode = false → bad → exec (.paceModeSet c) s = .next (s.after c fun k => { k with pace := { k.pace with cerr := true } })) ∧
     (p.mode = false → ¬bad → ∃ s', exec (.paceModeSet c) s = .next s' ∧ s' = s.setCore c.val (s'.coreAt c.val) ∧
        (s'.coreAt c.val).pace = { p with mode := true, cerr := false, work := 0, rel := 0, slips := 0, lastslip := 0, peak := p.used, bnext := 0 } ∧
        ∀ t, t < 8 → (s'.coreAt c.val).thread t = { k.thread t with pw := 0, pdone := false }) ∧
     (p.held = [] → exec (.paceModeClear c) s = .next (s.after c fun k => { k with pace := { k.pace with mode := false } })) ∧
     (p.mode = false ∨ s.tb < p.t0 + p.bnext * p.per → exec (.paceBoundary c) s = .next (s.after c id)) ∧
     (p.mode = true → p.t0 ≤ s.tb → s.tb < p.t0 + p.per → p.held = [] → p.tmask = 0 → p.maint = 0 → p.work = 0 → p.bnext = 0 →
        exec (.paceBoundary c) s = .next (s.after c fun k => { k with pace := { k.pace with bnext := 1, rel := max p.rel 1 } })))

/-- Core park, lock, dispatch, queue owners, core reset, cleared counters and pace events: CoreControl, CoreReset and CountersAndPace together. -/
def Obligations.CoreEvents : Prop :=
  Sys2Proof.Claims.CoreControl ∧ Sys2Proof.Claims.CoreReset ∧ Sys2Proof.Claims.CountersAndPace

/-! ## Engines, rings and DMA channels as events -/

/-- R41, R261, R266, R291: RETRY ends a halt for a refused ring address and no other; DROP empties the queue of a parked engine, or of a VXE halted by an IEEE trap, with its tracker entries, ends its halt, and lets the rings settle; PUSH appends the staging record to the queue of a parked engine with the ranges that it declares, and sets PUSHERR when the queue or the tracker has no room or the record does not belong there; an engine that is not parked takes neither, but for that DROP. The MXE's commands do nothing on a V-core. -/
def Sys2Proof.Claims.EngineRecovery : Prop :=
  ∀ (s : State) (c : CoreId), let core := s.coreAt c.val
    core.held = false →
    ((s.env c.val).vcore = true → ∀ i ∈ [Instr.mxeRetry c, .mxeDrop c, .mxePush c], exec i s = .next (s.after c id)) ∧
    ∀ x ∈ [(0, Instr.mxeRetry c, Instr.mxeDrop c, Instr.mxePush c), (1, .vxeRetry c, .vxeDrop c, .vxePush c)],
      (x.1 = 0 → (s.env c.val).vcore = false) → let g := core.eng x.1
      (g.halt = true → g.hcause = 1 ∨ g.hcause = 2 → exec x.2.1 s = .next (s.after c fun k => k.setEng x.1 { g with halt := false, hcause := 0 })) ∧
      (g.halt = false ∨ (g.hcause ≠ 1 ∧ g.hcause ≠ 2) → exec x.2.1 s = .next (s.after c id)) ∧
      (g.parked = true ∨ (x.1 = 1 ∧ g.halt = true ∧ g.hcause = 3) → exec x.2.2.1 s = .next (s.onCore c.val fun e k =>
        settleAll e ((g.q.foldl (fun k y => k.trkDropAll y.trk) k).setEng x.1 { g with q := [], halt := false, hcause := 0, srow := 0 }))) ∧
      (g.parked = false → (x.1 = 0 ∨ g.halt = false ∨ g.hcause ≠ 3) → exec x.2.2.1 s = .next (s.after c id)) ∧
      (let ranges := pushRanges (s.env c.val) core x.1 (g.staging 4)
       (g.parked = true → (32 ≤ g.q.length ∨ core.trkFree < ranges.length ∨ pushFits x.1 (g.staging 4) = false) →
        exec x.2.2.2 s = .next (s.after c fun k => k.setEng x.1 { g with pushErr := true })) ∧
       (g.parked = true → g.q.length < 32 → ranges.length ≤ core.trkFree → pushFits x.1 (g.staging 4) = true →
        exec x.2.2.2 s = .next (s.after c fun k => (k.setEng x.1 { g with pushErr := false }).push x.1 (g.staging 4) ranges)) ∧
       (ranges = [] → (core.setEng x.1 { g with pushErr := false }).push x.1 (g.staging 4) ranges =
          { core.setEng x.1 { g with q := g.q ++ [{ qw := g.staging 4, seq := core.seq, key := core.vxe.key, cb := core.mxe.cb }], pushErr := false } with seq := core.seq + 1 })) ∧
      (g.parked = false → exec x.2.2.2 s = .next (s.after c id))

/-- R265, R267, R293: on a parked engine a write through VDATA stores eight bytes of the register that REG names at WORD, every access of a data window moves WORD on, a write through TDATA on an EMPTY tile stores nothing, and a TAG write sets the tags of four tiles, each of which then holds zero outside its tag unless a queued command names it (R235, R267; that a named tile is left as it is is the model's reading, log entry 109); nothing changes on an engine that runs. VXE_DEFAULT has no effect without an IEEE trap. -/
def Sys2Proof.Claims.EngineWindows : Prop :=
  ∀ (s : State) (c : CoreId) (v : Word) (n : Fin 3) (w : Option Word), let core := s.coreAt c.val
    core.held = false →
    (core.vxe.eng.parked = true →
      exec (.vxeVdataAccess c none) s = .next (s.after c fun k => { k with vxe := { k.vxe with word := (k.vxe.word + 1) % 16 } }) ∧
      (core.vxe.v.wf = true → ∃ s', exec (.vxeVdataAccess c (some v)) s = .next s' ∧ s' = s.setCore c.val (s'.coreAt c.val) ∧
        (s'.coreAt c.val) = { core with vxe := { core.vxe with v := (s'.coreAt c.val).vxe.v, word := (core.vxe.word + 1) % 16 } } ∧
        ∀ a, rdByte (s'.coreAt c.val).vxe.v a = let b := 128 * core.vxe.reg + 8 * core.vxe.word
          if b ≤ a ∧ a < b + 8 then v.extractLsb' (8 * (a - b)) 8 else rdByte core.vxe.v a)) ∧
    (core.vxe.eng.parked = false → exec (.vxeVdataAccess c w) s = .next (s.after c id)) ∧
    (core.vxe.eng.halt = false ∨ core.vxe.eng.hcause ≠ 3 ∨ core.vxe.eng.q = [] → exec (.vxeDefault c) s = .next (s.after c id)) ∧
    ((s.env c.val).vcore = false → core.mxe.eng.parked = true →
      let step := (core.mxe.word + 1) % (if core.mxe.tile < 8 then 256 else 512)
      exec (.mxeTdataAccess c none) s = .next (s.after c fun k => { k with mxe := { k.mxe with word := step } }) ∧
      (core.mxe.tagOf core.mxe.tile = none → exec (.mxeTdataAccess c (some v)) s = .next (s.after c fun k => { k with mxe := { k.mxe with word := step } })) ∧
      (∃ s', exec (.mxeTagWrite c n v) s = .next s' ∧ s' = s.setCore c.val (s'.coreAt c.val) ∧ 
        (∀ a, rdByte (s'.coreAt c.val).mxe.tiles a = let sel := a / 4096
          if 4 * n.val ≤ sel ∧ sel < 4 * n.val + 4 ∧ (∀ x ∈ core.mxe.eng.q, sel ∉ mxeReads (x.iw 0) ∧ sel ∉ mxeWrites (x.iw 0)) ∧
            Shape.holds (decTag (fld v (16 * (sel - 4 * n.val)) 16)) sel (a % 4096) = false then 0 else rdByte core.mxe.tiles a) ∧
        ∀ q, (s'.coreAt c.val).mxe.tagOf q = if 4 * n.val ≤ q ∧ q < 4 * n.val + 4 then decTag (fld v (16 * (q - 4 * n.val)) 16) else core.mxe.tagOf q)) ∧
    ((s.env c.val).vcore = false → core.mxe.eng.parked = false →
      exec (.mxeTdataAccess c w) s = .next (s.after c id) ∧ exec (.mxeTagWrite c n v) s = .next (s.after c id))

/-- R54, R66, R159, R259, R619, R620, R629: a first command of a vector or matrix queue that no earlier range holds, and that does not address a ring, starts; on a parked, halted or stopped engine, on an empty queue and on a failed chip nothing starts or completes. An engine with an empty queue that was asked to park is parked at once. -/
def Sys2Proof.Claims.EngineStarts : Prop :=
  ∀ (s : State) (c : CoreId) (k : Fin 4) (row : Nat) (h : QEnt) (q : List QEnt), let core := s.coreAt c.val
    let g := core.eng k.val
    core.held = false →
    (s.dead = true ∨ (s.pins.throttle = true ∧ s.pwr.duty = 0) →
      ∀ i ∈ [Instr.engineCommandStart c k, .engineCommandComplete c k, .engineParked c k row], exec i s = .next s) ∧
    (s.dead = false → s.pins.throttle = false →
      (g.parked = true ∨ g.parkReq = true ∨ g.halt = true ∨ g.q = [] →
        exec (.engineCommandStart c k) s = .next (s.after c id) ∧ exec (.engineCommandComplete c k) s = .next (s.after c id)) ∧
      (k.val ≤ 1 → g.parked = false → g.parkReq = false → g.halt = false → g.q = h :: q → h.isCtr k.val = false → h.started = false → h.trk = [] →
        usesRing k.val h = false → tmovvHeld core k.val h = false →
        exec (.engineCommandStart c k) s = .next (s.after c fun x => x.setEng k.val { g with q := { h with started := true } :: q })) ∧
      (k.val ≤ 1 → g.q = [] → g.parkReq = true → g.parked = false →
        exec (.engineParked c k row) s = .next (s.after c fun x => x.setEng k.val { g with parked := true })) ∧
      (g.parkReq = false → exec (.engineParked c k row) s = .next (s.after c id)))

/-- Engines: starting, recovery, and the windows of a parked engine: EngineRecovery, EngineWindows and EngineStarts together. -/
def Obligations.Engines : Prop :=
  Sys2Proof.Claims.EngineRecovery ∧ Sys2Proof.Claims.EngineWindows ∧ Sys2Proof.Claims.EngineStarts

/-- R182 to R187, Table 19-8: a ring enabled from OFF is STARTING; its start makes it ON and empty, or, when ring_refused holds, OFF with CERR; disabled from ON with no endpoint bound to it, it is STOPPING, and it stops once no thread holds a message of it and no tracker entry covers its bytes. ADV moves TAIL of a ring that software produces, and sets AERR when a side is not software's or has no room. -/
def Sys2Proof.Claims.Rings : Prop :=
  ∀ (s : State) (c : CoreId) (n : Fin 16) (ha ta : BitVec 16), let core := s.coreAt c.val
    let r := core.ringAt n.val
    let put (x : Ring) : Out := .next (s.after c fun k => k.setRing n.val x)
    core.held = false →
    (r.fsm.st = .off → exec (.ringEnable c n) s = put { r with fsm := { r.fsm with en := true, st := .starting } }) ∧
    (r.fsm.st = .starting → r.fsm.en = true → ringRefused (s.env c.val) core n.val = false → exec (.ringStart c n) s =
      put { r with fsm := { r.fsm with st := .on, cerr := false }, head := 0, tail := 0, hwrap := false, twrap := false, msgs := [], owed := 0 }) ∧
    (r.fsm.st = .starting → ringRefused (s.env c.val) core n.val = true → exec (.ringStart c n) s =
      put { r with fsm := { r.fsm with st := .off, cerr := true, en := false } }) ∧
    (r.fsm.st = .on → (∀ m, (core.chiAt m).fsm.st ≠ .on) → exec (.ringDisable c n) s = put { r with fsm := { r.fsm with en := false, st := .stopping } }) ∧
    (r.fsm.st = .stopping → r.fsm.pend = false → core.thr = [] → core.trk.ents = [] →
      exec (.ringStopComplete c n) s = put { r with fsm := { r.fsm with st := .off } }) ∧
    (r.fsm.st = .stopping → core.conflict true (r.base * 128) (r.size * 128) true = true → exec (.ringStopComplete c n) s = .next (s.after c id)) ∧
    (r.fsm.st ≠ .on ∨ (ha ≠ 0 ∧ r.ckind ≠ 0) ∨ (ta ≠ 0 ∧ r.pkind ≠ 0) ∨ r.fill - r.owed < ha.toNat ∨ r.cap - r.fill < ta.toNat →
      exec (.ringAdv c n ha ta) s = put { r with aerr := true }) ∧
    (r.fsm.st = .on → r.pkind = 0 → r.ckind ≠ 1 → r.owed = 0 → r.fill + ta.toNat ≤ r.cap → r.tail + ta.toNat < r.cap →
      exec (.ringAdv c n 0 ta) s = put { r with tail := r.tail + ta.toNat })

/-- R305, R316 to R318, R320: a channel is enabled, starts, and stops with no transfer running by Table 19-8; a request pulse adds one to PCNT up to 2^32 - 1; the status record's answer ends an abort: CAUSE, ABORTS and SERR written, the channel halted, the interrupt delivered to the owner at the descriptor's level, and a record for every cause but DMAABORT; RESUME ends the halt, DROP empties the queue of a halted or parked channel with its tracker entries, and PUSH on a parked channel appends the staging record, or sets PUSHERR when it cannot. -/
def Sys2Proof.Claims.DmaChannels : Prop :=
  ∀ (s : State) (c : CoreId) (ch : Fin 2), let core := s.coreAt c.val
    let m := core.dma ch.val
    let put (x : Dma) : Out := .next (s.after c fun k => k.setDma ch.val x)
    core.held = false →
    (m.fsm.st = .off → exec (.dmaEnable c ch) s = put { m with fsm := { m.fsm with en := true, st := .starting } }) ∧
    (m.fsm.st = .starting → m.fsm.en = true → exec (.dmaStart c ch) s = put { m with fsm := { m.fsm with st := .on, cerr := false } }) ∧
    (m.fsm.st = .on → exec (.dmaDisable c ch) s = put { m with fsm := { m.fsm with en := false, st := .stopping } }) ∧
    (m.fsm.st = .stopping → m.fsm.pend = false → m.run = none → exec (.dmaStopComplete c ch) s = put { m with fsm := { m.fsm with st := .off } }) ∧
    (m.run ≠ none → exec (.dmaStopComplete c ch) s = .next (s.after c id)) ∧
    exec (.dmaRequestPulse c ch) s = put { m with pcnt := min (2 ^ 32 - 1) (m.pcnt + 1) } ∧
    exec (.dmaResume c ch) s = put { m with eng := { m.eng with halt := false } } ∧
    (m.eng.halt = true ∨ m.eng.parked = true → exec (.dmaDrop c ch) s = .next (s.onCore c.val fun e k => settleAll e
      ((m.eng.q.foldl (fun k y => k.trkDropAll y.trk) k).setDma ch.val
        { m with run := none, abpend := false, pos := 0, eng := { m.eng with q := [], halt := false, hcause := 0, srow := 0 } }))) ∧
    (m.eng.halt = false → m.eng.parked = false → exec (.dmaDrop c ch) s = .next (s.after c id)) ∧
    (let words := m.eng.staging 13
     let ranges := pushRanges (s.env c.val) core (2 + ch.val) words
     (m.eng.parked = true → (16 ≤ m.eng.q.length ∨ core.trkFree < ranges.length ∨ pushFits (2 + ch.val) words = false) →
      exec (.dmaPush c ch) s = .next (s.after c fun k => (k.setDma ch.val { m with eng := { m.eng with pushErr := true } }).noteHead (s.env c.val) ch.val)) ∧
     (m.eng.parked = true → m.eng.q.length < 16 → ranges.length ≤ core.trkFree → pushFits (2 + ch.val) words = true →
      exec (.dmaPush c ch) s = .next (s.after c fun k =>
        ((k.setDma ch.val { m with eng := { m.eng with pushErr := false } }).push (2 + ch.val) words ranges).noteHead (s.env c.val) ch.val))) ∧
    (m.eng.parked = false → exec (.dmaPush c ch) s = .next (s.after c id)) ∧
    (m.run = none → exec (.dmaStatusWritten c ch) s = .next (s.after c id)) ∧
    (∀ (h : QEnt) (q : List QEnt) (r : DmaRun) (t : Nat), m.eng.q = h :: q → h.isCtr (2 + ch.val) = false → m.run = some r →
      (r.status ≠ some [] → exec (.dmaStatusWritten c ch) s = .next (s.after c id)) ∧
      (∀ cause, r.abort = some cause → r.status = some [] → core.owner (s.env c.val) (2 + ch.val) = some t →
        exec (.dmaStatusWritten c ch) s = .next (s.onCore c.val fun e k =>
          let x := settleAll e (((k.trkDropAll h.trk).setDma ch.val
            { m with run := none, headAt := none, serr := r.statusBad, cause := cause, aborts := m.aborts + 1, pos := 0, eng := { m.eng with q := q, halt := true, srow := 0 } }).updThread t
              fun th => { th with xpend := th.xpend ||| BitVec.ofNat 5 (2 ^ ch.val), dmaLvl0 := if ch.val = 0 then BitVec.ofNat 3 h.desc.ilvl else th.dmaLvl0,
                                  dmaLvl1 := if ch.val = 1 then BitVec.ofNat 3 h.desc.ilvl else th.dmaLvl1 })
          (x.1, (if cause = 1 then [] else [e.errRec 0x05 2 ch.val (fld ((statusRecord e h.desc r.verdict.2 cause).getD 0 0) 0 48) 0]) ++ x.2))))

/-- R299, R304, R308, R311, R312: a transfer of one run of at most a burst between two local ranges that do not meet is carried out by one burst: after it every byte of the destination holds the byte of the source, every other byte of the scratchpad is as before, and the completion counts the transfer and takes it off the queue. -/
def Sys2Proof.Claims.DmaMoves : Prop :=
  ∀ (s : State) (c : CoreId) (ch : Fin 2) (h : QEnt) (q : List QEnt) (t0 a b : Nat), let core := s.coreAt c.val
    let m := core.dma ch.val
    let d := h.desc
    core.held = false → s.dead = false → s.pins.throttle = false → core.rings = [] → core.trk.ents = [] → core.pace.mode = false → core.spad.bytes.wf = true →
    m.eng.parked = false → m.eng.parkReq = false → m.eng.halt = false → m.eng.q = h :: q → h.isCtr (2 + ch.val) = false → h.trk = [] →
    m.run = some { t0 := t0 } → d.req = 0 → d.cnt 0 = 1 → d.cnt 1 = 1 → d.cnt 2 = 1 → d.run ≤ d.burst → d.cen = false → d.cpulse = 0 →
    dmaEnd (s.env c.val) d.src = .loc a → dmaEnd (s.env c.val) d.dst = .loc b → (a + d.run ≤ b ∨ b + d.run ≤ a) →
    (∀ i, i < d.run → core.spad.poisonAt (a + i) = false) →
    ∃ s', exec (.dmaBurstStart c ch) s = .next s' ∧ (∀ j, rdByte (s'.coreAt c.val).spad.bytes j =
        if b ≤ j ∧ j < b + d.run then rdByte core.spad.bytes (a + (j - b)) else rdByte core.spad.bytes j) ∧
      ((s'.coreAt c.val).dma ch.val).bytes = m.bytes + d.run ∧
      ∃ s2, exec (.dmaTransferComplete c ch) s' = .next s2 ∧ ((s2.coreAt c.val).dma ch.val).run = none ∧ ((s2.coreAt c.val).dma ch.val).eng.q = q ∧
        ((s2.coreAt c.val).dma ch.val).xfers = m.xfers + 1 ∧ (s2.coreAt c.val).spad = (s'.coreAt c.val).spad

/-- Rings, DMA channels, and the bytes that a local transfer moves: Rings, DmaChannels and DmaMoves together. -/
def Obligations.RingsAndDma : Prop :=
  Sys2Proof.Claims.Rings ∧ Sys2Proof.Claims.DmaChannels ∧ Sys2Proof.Claims.DmaMoves

/-! ## What reaches a core -/

/-- The state once the oldest waiting packet has been taken. -/
def Sys2Proof.Machine.State.took (s : State) (r : List InMsg) : State := { s with svc := { s.svc with inbox := r } }

/-- R114, R302, R326, R329, R334, R429: a core takes its oldest packet of a kind. The answer to a thread's far load completes the load with its value or its fault; an acknowledgement retires the write or increment that it answers; an error response to a write is an imprecise fault and one to an increment a notice, of their thread; an increment reaches its counter and is acknowledged, and one that names no counter is answered with an error; a mark makes a counter broken, with its record. What a tracker entry held goes on (R195). With no such packet waiting nothing changes. -/
def Obligations.PacketsAtCores : Prop :=
  ∀ (s : State) (c : CoreId) (t : Thr) (m : InMsg) (r : List InMsg), let core := s.coreAt c.val
    let th := s.thrOf c t
    core.held = false →
    (s.svc.inbox = [] → s.egress (nodeOf (s.phys c.val)) = none → ∀ i ∈ [Instr.farLoadResponse c t, .readDataArrival c, .writeResponseArrival c, .counterIncrementArrival c,
        .counterMarkBroken c, .openRequestArrival c, .grantArrival c, .refusalArrival c, .channelCreditArrival c, .closeRequestArrival c, .closeNoticeArrival c,
        .abandonNoticeArrival c, .messageArrival c, .ingressItem c, .ringAppend c], exec i s = .next s) ∧
    (s.svc.inbox = m :: r → m.unit = unitOf s.chipId c.val →
      (∀ (a : Word) (rd sz ty x i : Nat), th.st = .wait → th.waitOp = some (.farData rd sz ty a x i) → m.xid = x →
        (∀ (data : List Byte) (tag : Tag) (pz : List Nat), m.body = .readResp data tag pz →
          (∀ w, farResult sz ty (leNat data) tag a = .ok w → exec (.farLoadResponse c t) s = .next ((s.took r).settled c fun k =>
            ((k.trkDrop i).setReg t.val rd w).updThread t.val fun th => th.ran.advance.boundary)) ∧
          (∀ ev, farResult sz ty (leNat data) tag a = .error ev → exec (.farLoadResponse c t) s = .next ((s.took r).onCore c.val fun e k =>
            k.settleAfter e (raise e (k.trkDrop i) t.val ev)))) ∧
        (∀ kind, m.body = .err kind → exec (.farLoadResponse c t) s = .next ((s.took r).onCore c.val fun e k =>
          k.settleAfter e (raise e (k.trkDrop i) t.val (evFarKind kind a))))) ∧
      (∀ (w : FarWrite), core.dmaReads m.xid = false → core.farReads m.xid = false → s.egress (nodeOf (s.phys c.val)) = none →
        core.writes.find? (fun w => w.xid == m.xid && !w.failed) = some w →
        let freed (k : Core) : Core := match w.trk with | some i => k.trkDrop i | none => k
        let gone (k : Core) : Core := { k with writes := k.writes.filter fun x => x.xid != m.xid }
        (m.body = .ack → exec (.writeResponseArrival c) s = .next ((s.took r).onCore c.val fun e k => settleAll e (freed (gone k)))) ∧
        (∀ kind, m.body = .err kind → w.issuer < 8 →
          (w.inc = false → exec (.writeResponseArrival c) s = .next ((s.took r).onCore c.val fun e k => settleAll e
            ((freed { k with writes := k.writes.map fun x => if x.xid = m.xid then { x with failed := true } else x }).updThread w.issuer fun th =>
              { th with notices := th.notices ++ [{ evFarKind kind w.addr with imp := true }] }))) ∧
          (w.inc = true → exec (.writeResponseArrival c) s = .next (((s.took r).after c fun k => (gone k).updThread w.issuer fun th =>
            { th with notices := th.notices ++ [{ evFarKind kind w.addr with imp := true }] }).applyEmits c.val [incRecord (s.env c.val) kind w.addr])))) ∧
      (∀ (a : Word) (amt n : Nat), m.body = .inc a amt → saCounter a = some n →
        exec (.counterIncrementArrival c) s = .next (((s.took r).after c fun k => k.scAdd n amt).svcSend m.unit m.addr m.back m.xid .ack)) ∧
      (∀ (a : Word) (amt : Nat), m.body = .inc a amt → saCounter a = none →
        exec (.counterIncrementArrival c) s = .next ((s.took r).svcSend m.unit m.addr m.back m.xid (.err 1))) ∧
      (∀ (a : Word) (n : Nat), m.body = .markBroken a → saCounter a = some n →
        exec (.counterMarkBroken c) s = .next (((s.took r).after c fun k => { k with scBrk := k.scBrk ||| BitVec.ofNat 48 (2 ^ n) }).applyEmits c.val
          [(s.env c.val).errRec 0x0C 2 n (saChip m.back * 4096 + saLcid m.back) 0])) ∧
      (core.dmaReads m.xid = false → s.egress (nodeOf (s.phys c.val)) = none → r = [] → exec (.readDataArrival c) s = .next s))

/-- R190, R191, R367, R383, Table 12-3: the oldest complete item at a core's ingress is delivered. A write on a stream that no ring binds is recorded and dropped; one on a ring's stream waits while the ring has no room for its units, is discarded with its stream failed when the ring stops (R183), and else its bytes, padded with zeros to whole units, stand at TAIL, TAIL moves on, and the answer goes out on the partner stream. RING_APPEND takes write items only. A credit item adds to the CREDIT of an OPEN endpoint of its epoch; a message item goes to its endpoint's ring and a close request item to the endpoint that it names; a response on a stream that no transfer uses, and a read request, are recorded and dropped. -/
def Sys2Proof.Claims.ItemsAtCores : Prop :=
  ∀ (s s1 : State) (c : CoreId) (fs : List Flit) (st : Nat), let core := s.coreAt c.val
    core.held = false → s.egress (nodeOf (s.phys c.val)) = some (fs, s1) → (fs.head?.map Flit.stream).getD 0 = st →
    (∀ (a : Word) (data : List Byte) (pz : List Nat), itemOf fs = .write a data pz → ∀ i ∈ [Instr.ingressItem c, .ringAppend c],
      (boundStream core st = none → exec i s = .next ((s1.after c id).applyEmits c.val [(s.env c.val).errRec 0x0A 2 0 st 0])) ∧
      (∀ n, boundStream core st = some n → let q := core.ringAt n
        let units := (data.length + q.unit - 1) / q.unit
        (q.fsm.st = .stopping → exec i s = .next ((s1.after c id).applyEmits c.val [.streamFail st])) ∧
        (q.fsm.st = .on → q.cap - q.fill < units → exec i s = .next s) ∧
        (q.fsm.st = .on → units ≤ q.cap - q.fill → q.tail + units < q.cap → q.ckind ≤ 1 → pz = [] → (∀ f ∈ fs, f.ovf = false) → core.spad.bytes.wf = true →
          ∃ k, exec i s = .next ((s1.after c fun _ => k).applyEmits c.val [.inject (st + 1) (.writeResp a 0)]) ∧ k.ringAt n = { q with tail := q.tail + units } ∧
            k.thr = core.thr ∧ (∀ x, x ≠ n → k.ringAt x = core.ringAt x) ∧
            ∀ j, rdByte k.spad.bytes j = let b := q.base * 128 + q.tail * q.unit
              if b ≤ j ∧ j < b + units * q.unit then data.getD (j - b) 0 else rdByte core.spad.bytes j))) ∧
    ((itemOf fs).isWrite = false → exec (.ringAppend c) s = .next s) ∧
    (∀ g, itemOf fs = .message g → ∀ i ∈ [Instr.ingressItem c, .messageArrival c], exec i s = .next (s1.after c fun k => messageIn k g)) ∧
    (∀ (ep n : Nat), itemOf fs = .closeReq ep n → let x := closeReqArrives (s.env c.val) core n ep none
      ∀ i ∈ [Instr.ingressItem c, .closeRequestArrival c], exec i s = .next ((s1.after c fun _ => x.1).applyEmits c.val x.2)) ∧
    ((∃ a n, itemOf fs = .readReq a n) ∨ streamChannels (s.env c.val) core st = [] ∧ ((∃ a x, itemOf fs = .writeResp a x) ∨ ∃ a n x d pz, itemOf fs = .readData a n x d pz) →
      exec (.ingressItem c) s = .next ((s1.after c id).applyEmits c.val [(s.env c.val).errRec 0x0A 2 0 st 0])) ∧
    (∀ (ep n u : Nat), itemOf fs = .credit ep n u → let x := core.choAt n
      x.fsm.st = .on → x.epoch = ep → ∀ i ∈ [Instr.ingressItem c, .channelCreditArrival c],
        exec i s = .next (s1.after c fun k => k.setCho n { x with credit := min x.grant (x.credit + u) }))

/-- R302, R308, R311, R315, R316: the answer to the one read of a transfer's last burst. With data, the bytes stand at the transfer's local destination, the burst leaves and counts in BYTES; with an error the transfer's abort begins with the cause of that error and the scratchpad is as before. -/
def Sys2Proof.Claims.ReadAnswers : Prop :=
  ∀ (s : State) (c : CoreId) (ch : Fin 2) (m : InMsg) (r : List InMsg) (h : QEnt) (q : List QEnt) (p : Piece) (t0 b : Nat), let core := s.coreAt c.val
    let g := core.dma ch.val
    let d := h.desc
    core.held = false → core.rings = [] → core.spad.bytes.wf = true → s.egress (nodeOf (s.phys c.val)) = none → s.svc.inbox = m :: r → m.unit = unitOf s.chipId c.val →
    (core.dma (1 - ch.val)).run = none → g.eng.q = h :: q → h.isCtr (2 + ch.val) = false → h.trk = [] → d.cnt 0 = 1 → d.cnt 1 = 1 → d.cnt 2 = 1 → 0 < d.run →
    dmaEnd (s.env c.val) d.dst = .loc b → p.xid = m.xid → p.off = 0 → p.len = d.run → p.done = false → p.bad = 0 →
    g.run = some { t0 := t0, started := d.run, count := 1, bursts := [{ idx := 0, first := 0, len := d.run, reads := [p] }] } →
    (∀ (data : List Byte), data.length = d.run → m.body = .readResp data .raw [] → ∃ s', exec (.readDataArrival c) s = .next s' ∧ s' = (s.took r).setCore c.val (s'.coreAt c.val) ∧
      (∀ j, rdByte (s'.coreAt c.val).spad.bytes j = if b ≤ j ∧ j < b + d.run then data.getD (j - b) 0 else rdByte core.spad.bytes j) ∧
      (s'.coreAt c.val).dma ch.val = { g with bytes := g.bytes + d.run, headAt := some (g.headAt.getD s.tb), run := some { t0 := t0, started := d.run, count := 1, done := d.run } } ∧ (s'.coreAt c.val).thr = core.thr) ∧
    (∀ kind, m.body = .err kind → ∃ s', exec (.readDataArrival c) s = .next s' ∧ (s'.coreAt c.val).spad = core.spad ∧ (s'.coreAt c.val).thr = core.thr ∧
      ((s'.coreAt c.val).dma ch.val).run.bind DmaRun.abort = some (kindCause kind) ∧ ((s'.coreAt c.val).dma ch.val).bytes = g.bytes)

/-- Items at a core's ingress, and the answer to a DMA read: ItemsAtCores and ReadAnswers together. -/
def Obligations.ItemsAndReadData : Prop :=
  Sys2Proof.Claims.ItemsAtCores ∧ Sys2Proof.Claims.ReadAnswers

/-- R353 to R356, R364 to R373: a grant makes an OPENING endpoint OPEN with its credit, epoch and slot; a refusal and an error response make it CLOSED with CCAUSE 3 and 4; credit of the right epoch adds to CREDIT, up to GRANT; a close notice of the endpoint's epoch closes an OPEN or CLOSING endpoint, with CCAUSE 1 when it answers the close request of a CLOSING one and 2 else, and one with PEND set opens again at once; an open request is granted by an endpoint that waits for it with a ring that has room, and refused otherwise; a close request and an abandon notice of the endpoint's recorded sender close it and raise its EPOCH, and an abandon notice closes an OPENING one (that one of another sender does nothing to an OPEN endpoint is the model's reading, log entry 54). -/
def Sys2Proof.Claims.ChannelPackets : Prop :=
  ∀ (s : State) (c : CoreId) (m : InMsg) (r : List InMsg) (n ep u : Nat), let core := s.coreAt c.val
    let x := core.choAt n
    let y := core.chiAt n
    let t := s.took r
    core.held = false → s.svc.inbox = m :: r → m.unit = unitOf s.chipId c.val → s.egress (nodeOf (s.phys c.val)) = none →
    (∀ (sk : Bool) (slot : Nat), m.body = .grant n ep sk slot u → x.fsm.st = .starting → x.fsm.en = true → exec (.grantArrival c) s = .next (t.after c fun k => k.setCho n
      { x with fsm := { x.fsm with st := .on, cerr := false }, epoch := ep, slotKind := sk, slot := if sk then slot else 0, grant := u, credit := u })) ∧
    (∀ kind, m.body = .refusal n kind → x.fsm.st = .starting → exec (.refusalArrival c) s = .next (t.after c fun k => k.setCho n
      { x with fsm := { x.fsm with st := .off, en := false, cerr := false }, ccause := if kind = 0 then 3 else 4 })) ∧
    (m.body = .credit n ep u →
      (x.fsm.st = .on → x.epoch = ep → exec (.channelCreditArrival c) s = .next (t.after c fun k => k.setCho n { x with credit := min x.grant (x.credit + u) })) ∧
      (x.fsm.st ≠ .on ∨ x.epoch ≠ ep → exec (.channelCreditArrival c) s = .next (t.after c id))) ∧
    (∀ answer, m.body = .closeNotice n ep answer → (x.fsm.st = .on ∨ x.fsm.st = .stopping) → x.epoch = ep →
      let ccause := if x.fsm.st = .stopping ∧ answer = true then 1 else 2
      (x.fsm.pend = false → exec (.closeNoticeArrival c) s = .next (t.after c fun k => k.setCho n
        { x with fsm := { x.fsm with st := .off, en := false }, credit := 0, ccause := ccause })) ∧
      (x.fsm.pend = true → exec (.closeNoticeArrival c) s = .next ((t.after c fun k => k.setCho n
        { x with fsm := { x.fsm with st := .starting, pend := false, en := true }, credit := 0, ccause := ccause }).applyEmits c.val [openReqEmit (s.env c.val) n x]))) ∧
    (∀ answer, m.body = .closeNotice n ep answer → ((x.fsm.st ≠ .on ∧ x.fsm.st ≠ .stopping) ∨ x.epoch ≠ ep) → exec (.closeNoticeArrival c) s = .next (t.after c id)) ∧
    (∀ (chip lcid cho : Nat) (dyn : Bool), n < 64 → m.body = .openReq n chip lcid cho dyn → let g := core.ringAt y.ring
      let back := (s.env c.val).normChip (saCore chip 1 lcid 0)
      (y.fsm.st = .starting → y.fsm.en = true → y.dyn = dyn → g.fsm.st = .on → g.pkind = 1 → g.crkind = 1 → g.ckind ≤ 1 → 1 ≤ y.share → y.share + sharesOf core y.ring n ≤ g.cap →
        exec (.openRequestArrival c) s = .next ((t.after c fun k => k.setChi n { y with fsm := { y.fsm with st := .on, cerr := false }, peer := some ⟨chip, lcid, cho⟩, last := ⟨chip, lcid, cho⟩ }).applyEmits
          c.val [.svc back 0 (.grant cho y.epoch.toNat g.slotKind g.slot y.share)])) ∧
      (y.fsm.st ≠ .starting ∨ y.dyn ≠ dyn ∨ g.fsm.st ≠ .on ∨ g.cap < y.share + sharesOf core y.ring n →
        exec (.openRequestArrival c) s = .next ((t.after c id).applyEmits c.val [.svc back 0 (.refusal cho 0)]))) ∧
    (∀ (chip lcid cho : Nat), n < 64 → let g := core.ringAt y.ring
      let q := ringSettle (s.env c.val) ((core.setRing y.ring { g with msgs := g.msgs.map fun q => if q.chi = n ∧ q.st = .undispatched then { q with st := .consumed } else q }).setChi n
        { y with fsm := {}, epoch := y.epoch + 1, peer := none, drop := y.drop + g.msgs.countP fun q => decide (q.chi = n) && q.st == .undispatched }) y.ring
      let shut (em : List Emit) : Out := .next ((t.after c fun _ => q.1).applyEmits c.val (em ++ q.2))
      (m.body = .abandon n chip lcid cho →
        (y.fsm.st = .starting ∨ (y.fsm.st = .on ∧ y.peer = some ⟨chip, lcid, cho⟩) → exec (.abandonNoticeArrival c) s = shut []) ∧
        (y.fsm.st ≠ .starting → y.fsm.st ≠ .on ∨ y.peer ≠ some ⟨chip, lcid, cho⟩ → exec (.abandonNoticeArrival c) s = .next (t.after c id))) ∧
      (m.body = .closeReq n ep chip lcid cho →
        (y.fsm.st = .on → y.epoch.toNat = ep → y.peer = some ⟨chip, lcid, cho⟩ →
          exec (.closeRequestArrival c) s = shut [.svc ((s.env c.val).normChip (saCore chip 1 lcid 0)) 0 (.closeNotice cho ep true)]) ∧
        (y.fsm.st ≠ .on ∨ y.epoch.toNat ≠ ep → exec (.closeRequestArrival c) s = .next (t.after c id))))

/-- R351, R353, R355, R361 to R363, R368: the oldest message or close request that has been read, and that no earlier one of its channel stands before, leaves: a dynamic channel's as a packet, a static one's on its stream, held for the boundary in paced mode; a message for a CHI that is not OPEN, of another epoch, for a ring that is not ON or without room is dropped and counted, and one that fits is written into its ring at TAIL and counted in RCV; enabling a CHI and a CHO makes them OPENING, the CHO with its open request; disabling an OPEN CHO makes it CLOSING, and disabling a CHI closes it, drops its undispatched messages, raises its EPOCH and tells its peer. -/
def Sys2Proof.Claims.MessagesAndEndpoints : Prop :=
  ∀ (s : State) (c : CoreId) (n : Fin 64) (m : InMsg) (r : List InMsg) (g : Msg) (o : OutMsg) (rest : List OutMsg), let core := s.coreAt c.val
    let x := core.choAt n.val
    let y := core.chiAt n.val
    core.held = false →
    (nextOut [] core.out = none → exec (.messageInject c) s = .next (s.after c id)) ∧
    (core.out = o :: rest → o.reader = none → nextOut [] core.out = some (o, rest)) ∧
    (nextOut [] core.out = some (o, rest) → let left (k : Core) : Core := { k with out := rest }
      (o.msg = some g →
        (o.dyn = true → exec (.messageInject c) s = .next ((s.after c left).applyEmits c.val [.svc o.dst 0 (.message g)])) ∧
        (o.dyn = false → core.pace.mode = false → exec (.messageInject c) s = .next ((s.after c left).applyEmits c.val [.inject o.stream (.message g)])) ∧
        (o.dyn = false → core.pace.mode = true → exec (.messageInject c) s = .next (s.after c fun k => (left k).hold (.send (.inject o.stream (.message g)))))) ∧
      (o.msg = none →
        (o.dyn = true → exec (.messageInject c) s = .next ((s.after c left).applyEmits c.val [.svc o.dst 0 (.closeReq o.dchi o.epoch (s.env c.val).chip c.val o.cho)])) ∧
        (o.dyn = false → core.pace.mode = false → exec (.messageInject c) s = .next ((s.after c left).applyEmits c.val [.inject o.stream (.closeReq o.epoch o.dchi)])) ∧
        (o.dyn = false → core.pace.mode = true → core.pace.used < 64 → exec (.messageInject c) s = .next (s.after c fun k => (left k).hold (.send (.inject o.stream (.closeReq o.epoch o.dchi))))) ∧
        (o.dyn = false → core.holdRoom = false → exec (.messageInject c) s = .next (s.after c id)))) ∧
    (s.egress (nodeOf (s.phys c.val)) = none → s.svc.inbox = m :: r → m.unit = unitOf s.chipId c.val → m.body = .message g →
      let z := core.chiAt g.chi
      let q := core.ringAt z.ring
      exec (.messageArrival c) s = .next ((s.took r).after c fun k => messageIn k g) ∧
      (z.fsm.st ≠ .on ∨ z.epoch.toNat ≠ g.epoch ∨ q.fsm.st ≠ .on ∨ q.cap - q.fill < msgUnits q.slotKind g.data.length →
        exec (.messageArrival c) s = .next ((s.took r).after c fun k => k.setChi g.chi { z with drop := z.drop + 1 })) ∧
      (z.fsm.st = .on → z.epoch.toNat = g.epoch → q.fsm.st = .on → q.ckind = 1 → q.slotKind = false → msgUnits false g.data.length ≤ q.cap - q.fill →
        q.tail + msgUnits false g.data.length < q.cap → core.spad.bytes.wf = true →
        ∃ s', exec (.messageArrival c) s = .next s' ∧ s' = (s.took r).setCore c.val (s'.coreAt c.val) ∧ (s'.coreAt c.val).chiAt g.chi = { z with rcv := z.rcv + 1 } ∧
          ((s'.coreAt c.val).ringAt z.ring).tail = q.tail + msgUnits false g.data.length ∧ ((s'.coreAt c.val).ringAt z.ring).head = q.head ∧ (s'.coreAt c.val).thr = core.thr ∧
          (∀ i, i < g.data.length → rdByte (s'.coreAt c.val).spad.bytes (q.base * 128 + 16 * q.tail + 16 + i) = g.data.getD i 0) ∧
          (∀ j, (j < q.base * 128 + 16 * q.tail ∨ q.base * 128 + 16 * (q.tail + msgUnits false g.data.length) ≤ j) → rdByte (s'.coreAt c.val).spad.bytes j = rdByte core.spad.bytes j))) ∧
    (y.fsm.st = .off → exec (.chiEnable c n) s = .next (s.after c fun k => k.setChi n.val { y with fsm := { y.fsm with en := true, st := .starting } })) ∧
    (y.fsm.st ≠ .on → y.fsm.st ≠ .starting → exec (.chiDisable c n) s = .next (s.after c id)) ∧
    (y.fsm.st = .on ∨ y.fsm.st = .starting → let g := core.ringAt y.ring
      let q := ringSettle (s.env c.val) ((core.setRing y.ring { g with msgs := g.msgs.map fun q => if q.chi = n.val ∧ q.st = .undispatched then { q with st := .consumed } else q }).setChi n.val
        { y with fsm := {}, epoch := y.epoch + 1, peer := none, drop := y.drop + g.msgs.countP fun q => decide (q.chi = n.val) && q.st == .undispatched }) y.ring
      exec (.chiDisable c n) s = .next ((s.after c fun _ => q.1).applyEmits c.val
        ((match y.peer with
          | some p => [.svc ((s.env c.val).normChip (saCore p.chip 1 p.lcid 0)) 0 (.closeNotice p.cho y.epoch.toNat false)]
          | none => []) ++ q.2))) ∧
    (x.fsm.st = .off → exec (.choEnable c n) s = .next ((s.after c fun k => k.setCho n.val { x with fsm := { x.fsm with en := true, st := .starting } }).applyEmits
      c.val [.svc (x.dest (s.env c.val)) 0 (.openReq x.dchi (s.env c.val).chip c.val n.val x.dyn)])) ∧
    (x.fsm.st = .on → exec (.choDisable c n) s = .next (s.after c fun k =>
      { k.setCho n.val { x with fsm := { x.fsm with en := false, st := .stopping } } with
          out := k.out ++ [{ cho := n.val, dyn := x.dyn, stream := x.stream, dst := x.dest (s.env c.val), dchi := x.dchi, epoch := x.epoch }] }))

/-- Channel packets, messages and endpoint enables: ChannelPackets and MessagesAndEndpoints together. -/
def Obligations.ChannelEvents : Prop :=
  Sys2Proof.Claims.ChannelPackets ∧ Sys2Proof.Claims.MessagesAndEndpoints

/-- Items and flits agree (R382, Table 12-3): every item whose fields fit their widths and that carries no mark, cut into flits for a stream, is the item that those flits spell. -/
def Obligations.ItemsRoundTrip : Prop :=
  ∀ (stream : Nat) (x : Item),
    (match x with
     | .message m => m.epoch < 65536 ∧ m.chi < 64 ∧ m.seq < 2 ^ 32 ∧ m.cho < 256 ∧ m.chip < 4096 ∧ m.lcid < 4096 ∧ m.data.length ≤ 4096 ∧ m.pz = []
     | .write _ d pz => d.length ≤ 4096 ∧ pz = []
     | .writeResp _ st => st < 256
     | .readReq _ n => n < 8192
     | .readData _ n st d pz => n = d.length ∧ n ≤ 4096 ∧ st < 256 ∧ pz = []
     | .credit ep cho u => ep < 65536 ∧ cho < 64 ∧ u < 65536
     | .closeReq ep chi => ep < 65536 ∧ chi < 64) →
    itemOf (x.flits stream) = x ∧ (∀ f ∈ x.flits stream, f.stream = stream ∧ f.data.length = 64) ∧
    ∀ i, i < (x.flits stream).length → ((x.flits stream).getD i { stream := 0, hd := false, tr := false, data := [] }).hd = (i == 0) ∧
      ((x.flits stream).getD i { stream := 0, hd := false, tr := false, data := [] }).tr = (i + 1 == (x.flits stream).length)

/-! ## Barrier lines across chips, links and time -/

/-- R340, R343, R344, R346, R347: when every participant has arrived at the root of a line, the line completes: every participant's arrive bit falls and its generation rises by one, and the generation's parity turns; while one has not, nothing changes; a die that is not the root sends ARRIVE on UP once. A write of BLX.n is ignored as a whole while a participant has arrived or when the role is refused, as one that names both ROOT and UP is, else it takes the role and begins a generation; writing BRK = 1 makes the line whole again, and queues report a later break of it. -/
def Sys2Proof.Claims.BarrierLines : Prop :=
  ∀ (s : State) (n : Fin 8) (v : Word), let x := s.line n.val
    (x.root = true → x.isLocal = true → x.down = 0 → x.brk = false → (∃ p ∈ s.cores, p.2.part.getLsbD n.val = true) → (s.cores.map Prod.fst).Pairwise (· < ·) →
      (∀ p ∈ s.cores, p.2.part.getLsbD n.val = true → p.2.arrive.getLsbD n.val = true) →
      ∃ s', exec (.barrierDieArrived n) s = .next s' ∧ s'.line n.val = { x with got := 0, sent := false, parity := !x.parity } ∧
        (∀ m, m ≠ n.val → s'.line m = s.line m) ∧ ∀ l, (s'.coreAt l).spad = (s.coreAt l).spad ∧ (s'.coreAt l).thr = (s.coreAt l).thr ∧
          ((s.coreAt l).part.getLsbD n.val = true → (s'.coreAt l).arrive = (s.coreAt l).arrive &&& ~~~(BitVec.ofNat 8 (2 ^ n.val)) ∧
            (s'.coreAt l).bgenAt n.val = (s.coreAt l).bgenAt n.val + 1) ∧
          ((s.coreAt l).part.getLsbD n.val = false → s'.coreAt l = s.coreAt l)) ∧
    (x.isLocal = true → (∃ p ∈ s.cores, p.2.part.getLsbD n.val = true ∧ (s.coreAt p.1).arrive.getLsbD n.val = false) → exec (.barrierDieArrived n) s = .next s) ∧
    (x.brk = true → exec (.barrierDieArrived n) s = .next s) ∧
    (s.dieArrived n.val = true → x.root = false → x.upv = true → x.sent = false → x.up < 8 → let p := s.port x.up
      ∃ s', exec (.barrierDieArrived n) s = .next s' ∧ s' = { s.setLine n.val { x with sent := true } with lnk := s'.lnk } ∧ (∀ m, m ≠ x.up → s'.port m = s.port m) ∧
        (p.fsm.st ≠ .on → s'.port x.up = p) ∧
        (p.fsm.st = .on → (∀ u ∈ p.uready, u.kind ≠ 1 ∨ u.useq ≠ 255) → s'.port x.up = { p with uready := p.uready ++ [{ kind := 1, body := barrierBody n.val true false false x.parity }] })) ∧
    (s.dieArrived n.val = true → x.root = false → x.sent = true → exec (.barrierDieArrived n) s = .next s) ∧
    ((∃ p ∈ s.cores, p.2.arrive.getLsbD n.val = true) ∨ (v.getLsbD 22 = true ∧ v.getLsbD 21 = true) → exec (.blxWrite n v) s = .next s) ∧
    (s.blxIgnored n.val v = true → exec (.blxWrite n v) s = .next s) ∧
    (s.blxIgnored n.val v = false → exec (.blxWrite n v) s = .next (s.setLine n.val
      { isLocal := v.getLsbD 23, root := v.getLsbD 22, upv := v.getLsbD 21, up := (v.extractLsb' 18 3).toNat, down := v.extractLsb' 8 8, brk := x.brk && !v.getLsbD 0 })) ∧
    (s.cores = [] → v.getLsbD 22 = true → v.getLsbD 21 = false → v.extractLsb' 8 8 = 0 → s.blxIgnored n.val v = false) ∧
    (s.blxIgnored n.val x.word = false → x.up < 8 → exec (.blxBrkClear n) s = .next { s.setLine n.val { x with brk := false, got := 0, sent := false, parity := false } with
      cores := s.cores.map fun p => (p.1, p.2.forgetTold fun i => i == 48 + n.val) }) ∧
    (s.blxIgnored n.val x.word = true → exec (.blxBrkClear n) s = .next s)

/-- R344, R346, R472, R473: an ARRIVE of the line's generation from a port of DOWN is noted; COMPLETE from UP completes the line here; BROKEN breaks it and writes the record of cause 5; a unit out of its USEQ is not delivered, and a gap asks for replay. -/
def Sys2Proof.Claims.BarrierUnits : Prop :=
  ∀ (s : State) (k n : Fin 8) (body : BitVec 96) (q : Nat), let p := s.port k.val
    let x := s.line n.val
    let u : Urgent := { kind := 1, useq := q, body := body }
    p.up = true → p.holds = false → (∀ m, m < 8 → m ≠ n.val → (s.line m).down = 0 ∧ (s.line m).upv = false) →
    let t := s.setPort k.val { p with uexp := (p.uexp + 1) % 255 }
    (q = p.uexp → body.getLsbD (4 * n.val + 3) = true → body.getLsbD (4 * n.val + 2) = false → body.getLsbD (4 * n.val + 1) = false →
      body.getLsbD (4 * n.val) = x.parity → x.down.getLsbD k.val = true →
      exec (.barrierUnitArrival k ⟨u, u.crc⟩) s = .next (t.setLine n.val { x with got := x.got ||| BitVec.ofNat 8 (2 ^ k.val) })) ∧
    (q = p.uexp → body.getLsbD (4 * n.val + 3) = false → body.getLsbD (4 * n.val + 2) = true → body.getLsbD (4 * n.val + 1) = false →
      body.getLsbD (4 * n.val) = x.parity → x.upv = true → x.up = k.val → x.brk = false → exec (.barrierUnitArrival k ⟨u, u.crc⟩) s = .next (t.lineComplete n.val)) ∧
    (q = p.uexp → body.getLsbD (4 * n.val + 3) = false → body.getLsbD (4 * n.val + 2) = false → body.getLsbD (4 * n.val + 1) = true →
      x.upv = true → x.up = k.val → x.brk = false → x.down = 0 →
      exec (.barrierUnitArrival k ⟨u, u.crc⟩) s = .next ((t.setLine n.val { x with brk := true }).mcRecord 0x0D 2 n.val (5 + k.val * 256))) ∧
    (q ≠ p.uexp → (q + 255 - p.uexp) % 255 < 128 → exec (.barrierUnitArrival k ⟨u, u.crc⟩) s = .next (s.setPort k.val p.askUnits)) ∧
    (q ≠ p.uexp → 128 ≤ (q + 255 - p.uexp) % 255 → exec (.barrierUnitArrival k ⟨u, u.crc⟩) s = .next s)

/-- Barrier lines on a die, across links, and broken: BarrierLines and BarrierUnits together. -/
def Obligations.BarrierEvents : Prop :=
  Sys2Proof.Claims.BarrierLines ∧ Sys2Proof.Claims.BarrierUnits

/-- R460, R464, R466 to R468, R470, R476: a port that is up sends a cell to be sent again first, else a new one when a credit and room are there, else an idle cell; the symbols that a cell's codewords correct and the codewords that do not decode are counted; a good cell frees the cells that its ACK covers, and one of the expected SEQ is accepted and acknowledged; a cell with a codeword that does not decode or with another CRC is discarded and asks for replay, once; without progress for 512 ns the unacknowledged cells go again, and after 100 µs the port fails; after eight freed cells of a lane, or 1 µs after the last report with one unreported, LCREDIT is ready with the freed counts and the last unit accepted. On a port that is not up nothing moves, nor do cells while a lane swap holds it. -/
def Sys2Proof.Claims.LinkCells : Prop :=
  ∀ (s : State) (k : Fin 8) (x : Cell) (words : List (List Nat)) (crc : BitVec 32) (w : SvcWire) (r : List SvcWire), let p := s.port k.val
    let put (q : Lnk) : Out := .next (s.setPort k.val q)
    let f := p.fecIn s.tb words
    let g := f.acked s.tb x.ack
    (p.up = false → ∀ i ∈ [Instr.cellSend k, .cellReceive k ⟨x, crc⟩ words, .replayTimeout k, .portAckTimeout k, .lcreditSend k], exec i s = .next s) ∧
    (p.holds = true → exec (.cellSend k) s = .next s) ∧ (f.holds = true → exec (.cellReceive k ⟨x, crc⟩ words) s = .next s) ∧
    (f.fecce = p.fecce + ((words.filter fun w => decide (w.length ≤ p.corrects)).map List.length).sum ∧ f.fecue = p.fecue + words.countP (fun w => decide (p.corrects < w.length)) ∧
      f.held = p.held ∧ f.expSeq = p.expSeq ∧ f.asked = p.asked ∧ f.fsm = p.fsm) ∧
    (∀ (c : Cell) (n : Nat), p.held = [(c, n)] → (x.ack + 128 - c.seq) % 128 < 64 → g.held = [] ∧ g.progAt = s.tb) ∧
    (p.held = [] → g = f) ∧
    (p.asked = false → p.fsm.st = .on → p.askCells = { p with asked := true, uready := p.uready ++ [{ kind := 5, body := BitVec.ofNat 96 (p.expSeq + p.uexp * 256 + 65536) }] }) ∧
    (p.asked = true → p.askCells = p) ∧
    (p.up = true → f.holds = false →
      ((∃ c ∈ words, p.corrects < c.length) ∨ crc ≠ x.crc → exec (.cellReceive k ⟨x, crc⟩ words) s = put (Lnk.askCells { f with crce := p.crce + b2n (crc != x.crc) })) ∧
      ((∀ c ∈ words, c.length ≤ p.corrects) → crc = x.crc →
        (x.body = .idle → exec (.cellReceive k ⟨x, crc⟩ words) s = put g) ∧
        (x.body ≠ .idle → x.seq ≠ g.expSeq → exec (.cellReceive k ⟨x, crc⟩ words) s = put g.askCells) ∧
        (∀ pk, x.body = .vl1 (.pkt pk false) → x.seq = g.expSeq → exec (.cellReceive k ⟨x, crc⟩ words) s =
          put { g with expSeq := (g.expSeq + 1) % 128, lastAck := x.seq, asked := false, freed1 := (g.freed1 + 1) % 65536 }) ∧
        (∀ fs, x.body = .vl0 fs → x.seq = g.expSeq → exec (.cellReceive k ⟨x, crc⟩ words) s =
          .next ((s.setPort k.val { g with expSeq := (g.expSeq + 1) % 128, lastAck := x.seq, asked := false, rx0 := g.rx0 ++ [fs.length] }).putFlits (linkNode k.val) 4
            (fs.map fun z => { z with ovf := (fs.getLast?.map Flit.ovf).getD false }))))) ∧
    (p.up = true → p.holds = false →
      (p.resend = [] → p.tx1 = [] → s.wire (linkNode k.val) 5 = [] →
        exec (.cellSend k) s = put { p with tx := p.tx ++ [.cell { seq := 0, ack := p.lastAck, body := .idle }], gap := p.gap + 1 }) ∧
      (∀ (c : Cell) (cs : List Cell), p.resend = c :: cs → exec (.cellSend k) s = put { p with resend := cs, tx := p.tx ++ [.cell { c with ack := p.lastAck }], gap := p.gap + 1, held := p.held.map fun h => if h.1.seq = c.seq then (h.1, h.2 + 1) else h }) ∧
      (p.resend = [] → p.fsm.st = .on → p.tx1 = w :: r → s.wire (linkNode k.val) 5 = [] → p.held = [] → p.sent1 = p.free1 → p.sent1 < 65536 →
        let c : Cell := { seq := p.seq, ack := p.lastAck, body := .vl1 w }
        exec (.cellSend k) s = put { p with tx1 := r, sent1 := (p.sent1 + 1) % 65536, since1 := 0, seq := (p.seq + 1) % 128, held := [(c, 1)], tx := p.tx ++ [.cell c], gap := p.gap + 1, progAt := s.tb, rpAt := s.tb }) ∧
      (p.held = [] → exec (.replayTimeout k) s = .next s ∧ exec (.portAckTimeout k) s = .next s) ∧
      (∀ (c : Cell) (n : Nat) (hs : List (Cell × Nat)), p.held = (c, n) :: hs →
        (p.rpAt + 512 ≤ s.tb → exec (.replayTimeout k) s = put { p with resend := c :: hs.map Prod.fst, replay := p.replay + 1, rpAt := s.tb }) ∧
        (s.tb < p.rpAt + 512 → exec (.replayTimeout k) s = .next s) ∧
        (s.tb < p.progAt + 100000 → (∀ h ∈ p.held, h.2 < 16) → exec (.portAckTimeout k) s = .next s) ∧
        (p.progAt + 100000 ≤ s.tb ∨ (∃ h ∈ p.held, 16 ≤ h.2) → ∃ s', exec (.portAckTimeout k) s = .next s' ∧ (p.fsm.pend = false → (s'.port k.val).fsm.st = .off) ∧
          (s'.port k.val).dcause = 4 ∧ ∀ l, (s'.coreAt l).spad = (s.coreAt l).spad ∧ (s'.coreAt l).thr = (s.coreAt l).thr)) ∧
      (p.rx0 = [] → p.freed0 = p.told0 → p.freed1 = p.told1 → exec (.lcreditSend k) s = put { p with freed0 := p.freed0 % 65536 }) ∧
      (p.rx0 = [] → p.fsm.st = .on → p.freed0 < 65536 → let n0 := (p.freed0 + 65536 - p.told0) % 65536
        let n1 := (p.freed1 + 65536 - p.told1) % 65536
        8 ≤ n0 ∨ 8 ≤ n1 ∨ (0 < n0 + n1 ∧ p.lcAt + 1000 ≤ s.tb) → exec (.lcreditSend k) s = put { p with
          told0 := p.freed0, told1 := p.freed1, lcAt := s.tb
          uready := p.uready ++ [{ kind := 3, body := BitVec.ofNat 96 (p.freed0 + p.freed1 * 65536 + (p.uexp + 254) % 255 * 2 ^ 32) }] }))

/-- R467, R468, R471 to R478, R630: REPLAY makes the port send its cells again from the named SEQ and its units from the named USEQ; LCREDIT writes the freed counts and retires the units that it acknowledges; CCREDIT puts a credit item of its stream on the wire; LANESWAP agrees a swap, and of a second lane fails the port; CHIPDOWN fails the port, ends the chip's route and records the chip once; a unit goes when no cell is on the wire and four cells have gone since the last, a sequenced one with the next USEQ, a BEACON with the TB and its fraction; a unit whose CRC fails, or whose KIND is not its command's, counts as a CRC error and asks for replay; a port that is STOPPING sends nothing new. -/
def Sys2Proof.Claims.LinkUnits : Prop :=
  ∀ (s : State) (k : Fin 8) (u : Urgent) (crc : BitVec 16) (wait : Nat), let p := s.port k.val
    let put (q : Lnk) : Out := .next (s.setPort k.val q)
    let after := (p.uexp + 1) % 255
    let arrivals (crc : BitVec 16) : List (Nat × Instr) := [(5, .replayUnitArrival k ⟨u, crc⟩), (3, .lcreditArrival k ⟨u, crc⟩), (4, .ccreditArrival k ⟨u, crc⟩), (6, .chipdownArrival k ⟨u, crc⟩),
      (7, .laneswapArrival k ⟨u, crc⟩), (2, .beaconArrival k u crc), (8, .delayUnitArrival k u crc wait), (1, .barrierUnitArrival k ⟨u, crc⟩)]
    exec (.urgentUnitSend k true) s = .next s ∧
    (p.up = false ∨ p.holds = true → (∀ i ∈ arrivals crc, exec i.2 s = .next s) ∧ exec (.urgentUnitSend k false) s = .next s) ∧
    (let ask : Urgent := { kind := 5, body := BitVec.ofNat 96 (p.expSeq + p.uexp * 256 + 131072) }
     (ask ∈ p.uready ∨ p.fsm.st ≠ .on → p.askUnits = p) ∧ (ask ∉ p.uready → p.fsm.st = .on → p.askUnits = { p with uready := p.uready ++ [ask] })) ∧
    (p.up = true → p.holds = false →
      (∀ i ∈ arrivals crc, crc ≠ u.crc ∨ u.kind ≠ i.1 → exec i.2 s = put (Lnk.askUnits { p with crce := p.crce + 1 })) ∧
      (∀ i ∈ arrivals u.crc, u.kind = i.1 → i.1 = 4 ∨ i.1 = 6 ∨ i.1 = 7 ∨ i.1 = 1 → u.useq ≠ p.uexp →
        exec i.2 s = if (u.useq + 255 - p.uexp) % 255 < 128 then put p.askUnits else .next s) ∧
      (u.kind = 5 → u.body.getLsbD 17 = false → exec (.replayUnitArrival k ⟨u, u.crc⟩) s = if u.body.getLsbD 16 then
        put { p with resend := (p.held.map Prod.fst).dropWhile (fun c => c.seq != (u.body.extractLsb' 0 7).toNat), replay := p.replay + 1, rpAt := s.tb } else put p) ∧
      (u.kind = 5 → u.body.getLsbD 16 = false → u.body.getLsbD 17 = true → exec (.replayUnitArrival k ⟨u, u.crc⟩) s =
        put { p with uready := (p.uheld.dropWhile fun v => v.useq != (u.body.extractLsb' 8 8).toNat) ++ p.uready.filter fun v => !(urgentSequenced v.kind && v.useq != 255) }) ∧
      (u.kind = 3 → let held := p.uheld.dropWhile fun v => decide (((u.body.extractLsb' 32 8).toNat + 255 - v.useq) % 255 < 32)
        exec (.lcreditArrival k ⟨u, u.crc⟩) s = put { p with free0 := (u.body.extractLsb' 0 16).toNat, free1 := (u.body.extractLsb' 16 16).toNat, uheld := held, uready := p.uready.filter fun v => !(urgentSequenced v.kind && v.useq != 255) || held.contains v }) ∧
      (u.kind = 4 → u.useq = p.uexp → exec (.ccreditArrival k ⟨u, u.crc⟩) s = .next ((s.setPort k.val { p with uexp := after }).putFlits
        (linkNode k.val) 4 [{ stream := (u.body.extractLsb' 0 10).toNat, kind := 5, hd := true, tr := true, data := headFlit ((u.body.extractLsb' 32 64)) 0 }])) ∧
      (u.kind = 7 → u.useq = p.uexp → let n := (u.body.extractLsb' 8 32).toNat
        let lane := (u.body.extractLsb' 0 4).toNat
        (p.swap = none → p.lmap = [] → exec (.laneswapArrival k ⟨u, u.crc⟩) s = put { p with uexp := after, swap := some (n, lane) }) ∧
        (∀ m, p.swap = some (m, lane) → exec (.laneswapArrival k ⟨u, u.crc⟩) s = put { p with uexp := after, swap := some (if (n + 2 ^ 32 - m) % 2 ^ 32 < 2 ^ 31 then n else m, lane) }) ∧
        ((p.swap = none ∧ p.lmap ≠ []) ∨ (∃ m other, p.swap = some (m, other) ∧ other ≠ lane) → ∃ s', exec (.laneswapArrival k ⟨u, u.crc⟩) s = .next s' ∧ (s'.port k.val).dcause = 3 ∧
          (p.fsm.pend = false → (s'.port k.val).fsm.st = .off))) ∧
      (u.kind = 6 → u.useq = p.uexp → let c := (u.body.extractLsb' 0 12).toNat
        ∃ s', exec (.chipdownArrival k ⟨u, u.crc⟩) s = .next s' ∧ s'.mc.chipsDown = (if c ∈ s.mc.chipsDown then s.mc.chipsDown else s.mc.chipsDown ++ [c]) ∧
          (∀ e ∈ s'.crt, e.1 = c → e.2.v = false) ∧ (p.fsm.pend = false → (s'.port k.val).fsm.st = .off) ∧ (s'.port k.val).dcause = 5 ∧
          ∀ l, (s'.coreAt l).spad = (s.coreAt l).spad ∧ (s'.coreAt l).thr = (s.coreAt l).thr) ∧
      (p.gap < 4 ∨ p.uready = [] → exec (.urgentUnitSend k false) s = .next s) ∧
      (p.fsm.st = .stopping → (∀ v ∈ p.uready, urgentSequenced v.kind = false ∨ v.useq = 255) → exec (.urgentUnitSend k false) s = .next s) ∧
      (∀ v : Urgent, p.fsm.st = .on → 4 ≤ p.gap → p.uready = [v] →
        (urgentSequenced v.kind = true → v.useq = 255 → p.uheld.length < 32 → exec (.urgentUnitSend k false) s =
          put { p with uready := [], gap := 0, tx := p.tx ++ [.unit { v with useq := p.useq }], useq := (p.useq + 1) % 255, uheld := p.uheld ++ [{ v with useq := p.useq }] }) ∧
        (v.kind = 2 → exec (.urgentUnitSend k false) s =
          put { p with uready := [], gap := 0, tx := p.tx ++ [.unit { v with body := BitVec.ofNat 96 (v.body.toNat / 2 ^ 80 * 2 ^ 80 + s.tbr.frac * 2 ^ 64 + s.tb % 2 ^ 64) }] })))

/-- R476 to R479, R578, R600, Table 19-8: a present port is enabled, and trains: with both ends good it is ON with what training found; with two lanes lost it goes OFF with DCAUSE 3 and with a peer that does not verify with DCAUSE 7; disabled it is STOPPING, and OFF once every cell is acknowledged. A lane that loses its signal, or whose corrected symbols exceed SPTHR in the 1 ms window, is replaced by LANE.8 at a codeword count at least 256 ahead; a second one takes the port down with DCAUSE 3. -/
def Sys2Proof.Claims.LinkPorts : Prop :=
  ∀ (s : State) (k : Fin 8) (x : Training) (lane : Fin 9) (n : Nat) (lost : Bool), let p := s.port k.val
    (s.portPresent k.val = false → exec (.portEnable k) s = .next s ∧ exec (.portDisable k) s = .next s) ∧
    (s.portPresent k.val = true →
      (p.fsm.st = .off → exec (.portEnable k) s = .next (s.setPort k.val { p with fsm := { p.fsm with en := true, st := .starting } })) ∧
      (p.fsm.st = .on → exec (.portDisable k) s = .next (s.setPort k.val { p with fsm := { p.fsm with en := false, st := .stopping }, stopAt := s.tb }))) ∧
    (p.fsm.st ≠ .starting → exec (.portTrainingComplete k x) s = .next s) ∧
    (p.fsm.st = .starting → p.fsm.en = true →
      (x.lanes = [] → x.latency = true → p.fec ≠ 2 → x.verified = true → x.noQuote = false → x.debug = false → (s.brg.topo.getD {}).pinned.contains k.val = false → x.peerChip ≠ s.chipId →
        ∃ s', exec (.portTrainingComplete k x) s = .next s' ∧ s' = s.setPort k.val (s'.port k.val) ∧ let q := s'.port k.val
          q.fsm = { p.fsm with st := .on, cerr := false } ∧ q.dcause = 0 ∧ q.miswired = false ∧ q.delay = x.delay ∧ q.peerV = true ∧ q.peerChip = x.peerChip ∧ q.peerPort = x.peerPort ∧
          q.seq = 0 ∧ q.held = [] ∧ q.expSeq = 0 ∧ q.uheld = [] ∧ q.lmap = []) ∧
      (2 ≤ x.lanes.length → ∃ s', exec (.portTrainingComplete k x) s = .next s' ∧ (s'.port k.val).fsm = { p.fsm with st := .off, cerr := true, en := false } ∧ (s'.port k.val).dcause = 3) ∧
      (x.lanes = [] → x.latency = true → p.fec = 1 → x.verified = false → ∃ s', exec (.portTrainingComplete k x) s = .next s' ∧
        (s'.port k.val).fsm = { p.fsm with st := .off, cerr := true, en := false } ∧ (s'.port k.val).dcause = 7)) ∧
    (p.fsm.st ≠ .stopping ∨ (p.held ≠ [] ∧ s.tb < p.stopAt + 10000) → exec (.portStopComplete k) s = .next s) ∧
    (p.fsm.st = .stopping → p.fsm.pend = false → p.held = [] → ∃ s', exec (.portStopComplete k) s = .next s' ∧ (s'.port k.val).fsm = { p.fsm with st := .off } ∧
      (s'.port k.val).dcause = 1 ∧ s'.hbm = s.hbm ∧ ∀ l, (s'.coreAt l).spad = (s.coreAt l).spad ∧ (s'.coreAt l).thr = (s.coreAt l).thr) ∧
    (let fails := lost || (p.errWin == s.tb / 1000000 && decide (p.spthr < mget 0 p.laneErr lane.val))
     let count := (p.cwords + 256 + n) % 2 ^ 32
     (p.up = false ∨ fails = false → exec (.laneSpareDetect k lane ⟨n, lost⟩) s = .next s) ∧
     (p.up = true → fails = true →
      (p.laneUsed lane.val = true →
        (p.swap = none → p.lmap = [] → p.sparen = false → exec (.laneSpareDetect k lane ⟨n, lost⟩) s = .next s) ∧
        (p.swap = none → p.lmap = [] → p.sparen = true → p.fsm.st = .on → exec (.laneSpareDetect k lane ⟨n, lost⟩) s =
          .next (s.setPort k.val { p with swap := some (count, lane.val), uready := p.uready ++ [{ kind := 7, body := BitVec.ofNat 96 (lane.val + count * 256) }] })) ∧
        ((∃ m, p.swap = some (m, lane.val)) → exec (.laneSpareDetect k lane ⟨n, lost⟩) s = .next s) ∧
        ((p.swap = none ∧ p.lmap ≠ []) ∨ (∃ m other, p.swap = some (m, other) ∧ other ≠ lane.val) → ∃ s', exec (.laneSpareDetect k lane ⟨n, lost⟩) s = .next s' ∧ (s'.port k.val).dcause = 3)) ∧
      (p.laneUsed lane.val = false →
        (lane.val ≠ 8 → exec (.laneSpareDetect k lane ⟨n, lost⟩) s = .next s) ∧
        (lane.val = 8 → p.swap = none → exec (.laneSpareDetect k lane ⟨n, lost⟩) s = .next (s.setPort k.val { p with lmap := mset p.lmap 8 8 })) ∧
        (lane.val = 8 → p.swap.isSome = true → ∃ s', exec (.laneSpareDetect k lane ⟨n, lost⟩) s = .next s' ∧ (s'.port k.val).dcause = 3)))) ∧
    (p.swap = none ∨ p.holds = false → exec (.laneSwap k) s = .next s) ∧
    (∀ m, p.swap = some (n, m) → p.holds = true → exec (.laneSwap k) s =
      .next ((s.setPort k.val { p with swap := none, spared := true, lmap := mset p.lmap m 8 }).portRecord k.val m 0x13 0 m p.fecce))

/-- Links: cells, urgent units, ports, training and sparing: LinkCells, LinkUnits and LinkPorts together. -/
def Obligations.Links : Prop :=
  Sys2Proof.Claims.LinkCells ∧ Sys2Proof.Claims.LinkUnits ∧ Sys2Proof.Claims.LinkPorts

/-- R486 to R490, R492: each 1,000 ticks one beacon is made ready on every port that is ON; a beacon on UP while FREE before any job steps the TB to the root's time with its fraction and begins ACQUIRING, and any other steers, LOCKED after sixteen within 1/4 tick; three missed beacons begin HOLDOVER and 1 ms of it ends in FREE, each with its record; the link delay is measured each 1 ms, a request answered, and a response gives half the round trip less the turnaround; TB_CTL takes a role that does not name both ROOT and UP; TB_SYNC sets TB at an armed edge before a job, at any other gives the way that TB is slewed until edges fall on multiples of INTERVAL, and its loss is recorded. -/
def Obligations.TimeSync : Prop :=
  ∀ (s : State) (k : Fin 8) (u : Urgent) (v : Word) (wait : Nat), let t := s.tbr
    let p := s.port k.val
    (s.tb / 1000 ≤ t.beats → exec .beaconEmit s = .next s) ∧
    (t.beats < s.tb / 1000 → ∃ s', exec .beaconEmit s = .next s' ∧ s' = { s with tbr := { t with beats := s.tb / 1000 }, lnk := s'.lnk } ∧
      ∀ m, m < 8 → s'.port m = if (s.port m).fsm.st = .on then { s.port m with uready := (s.port m).uready ++ [{ kind := 2, body := s.beaconBody }] } else s.port m) ∧
    (p.up = true → p.holds = false → u.kind = 2 → t.upv = true → t.up = k.val → t.root = false →
      let now := (u.body.extractLsb' 0 64).toNat * 65536 + (u.body.extractLsb' 64 16).toNat + p.delay * 1024
      let off : Int := (now : Int) - ((s.tb * 65536 + t.frac : Nat) : Int)
      ∃ s', exec (.beaconArrival k u u.crc) s = .next s' ∧ s' = { s with tb := s'.tb, tbr := s'.tbr } ∧ s'.tbr.depth = ((u.body.extractLsb' 80 4).toNat + 1) % 16 ∧
        s'.tbr.rootId = (u.body.extractLsb' 84 12).toNat ∧ s'.tbr.offset = off ∧
        (t.state = 0 → s.job.started = false → s'.tb = now / 65536 % 2 ^ 64 ∧ s'.tbr.frac = now % 65536 ∧ s'.tbr.state = 1) ∧
        (t.state ≠ 0 ∨ s.job.started = true → s'.tb = s.tb ∧ s'.tbr.lastAt = s.tb ∧ (15 ≤ t.good → -16384 ≤ off → off ≤ 16384 → s'.tbr.state = 2) ∧
          ((off < -16384 ∨ 16384 < off) → s'.tbr.state = 1 ∧ s'.tbr.good = 0))) ∧
    (p.up = true → p.holds = false → u.kind = 2 → (t.upv = false ∨ t.up ≠ k.val ∨ t.root = true) →
      let off : Int := (((u.body.extractLsb' 0 64).toNat * 65536 + (u.body.extractLsb' 64 16).toNat + p.delay * 1024 : Nat) : Int) - ((s.tb * 65536 + t.frac : Nat) : Int)
      exec (.beaconArrival k u u.crc) s = .next (if 131072 < off ∨ off < -131072 then s.mcRecord 0x15 0 0 (natOfInt 48 off) else s)) ∧
    (p.fsm.st = .on → p.delayAt + 1000000 ≤ s.tb → exec (.delayMeasure k) s = .next (s.setPort k.val { p with delayAt := s.tb, uready := p.uready ++ [{ kind := 8, body := 0 }] })) ∧
    (p.fsm.st ≠ .on ∨ s.tb < p.delayAt + 1000000 → exec (.delayMeasure k) s = .next s) ∧
    (p.fsm.st = .on → p.holds = false → u.kind = 8 → u.body.getLsbD 80 = false → exec (.delayUnitArrival k u u.crc wait) s =
      .next (s.setPort k.val { p with uready := p.uready ++ [{ kind := 8, body := BitVec.ofNat 96 (2 ^ 80) }] })) ∧
    (∀ t0, p.up = true → p.holds = false → u.kind = 8 → u.body.getLsbD 80 = true → p.asking = some t0 → exec (.delayUnitArrival k u u.crc wait) s =
      .next (s.setPort k.val { p with asking := none, delay := ((s.tb * 65536 + t.frac - t0) / 1024 - wait) / 2 })) ∧
    (t.upv = true → t.root = false → t.state = 1 ∨ t.state = 2 → t.lastAt + 3000 ≤ s.tb ∨ (s.port t.up).up = false →
      exec .holdoverEntry s = .next ({ s with tbr := { t with state := 3, holdAt := s.tb, good := 0 } }.timeRecord 0 1)) ∧
    (t.root = true ∨ t.state = 0 ∨ t.state = 3 → exec .holdoverEntry s = .next s) ∧
    (t.state = 3 → t.holdAt + 1000000 ≤ s.tb → exec .holdoverTimeout s = .next ({ s with tbr := { t with state := 0, good := 0, freq := 0 } }.timeRecord 2 2)) ∧
    (t.state ≠ 3 ∨ s.tb < t.holdAt + 1000000 → exec .holdoverTimeout s = .next s) ∧
    (t.root = false ∨ t.syncEn = false → exec .tbSyncEdge s = .next s) ∧
    (t.root = true → t.syncEn = true → t.steparm = true → s.job.started = false → exec .tbSyncEdge s =
      .next { s with tb := t.syncset.toNat, tbr := { t with steparm := false, edgeAt := t.syncset.toNat, beats := t.syncset.toNat / 1000, frac := 0, slew := 0, toGo := 0 } }) ∧
    (t.root = true → t.syncEn = true → (t.steparm = false ∨ s.job.started = true) → t.interval ≠ 0 → let off := syncOffset t.interval s.tb t.frac
      exec .tbSyncEdge s = .next { s with tbr := { t with edgeAt := s.tb, offset := off, toGo := off } } ∧
        (((s.tb * 65536 + t.frac : Nat) : Int) + off) % ((65536 * t.interval : Nat) : Int) = 0) ∧
    (t.root = true → t.syncEn = true → t.edgeAt + 3 * t.interval ≤ s.tb → exec .tbSyncLost s =
      .next ({ s with tbr := { t with lost := true, edgeAt := s.tb } }.timeRecord 0 3)) ∧
    (s.tb < t.edgeAt + 3 * t.interval → exec .tbSyncLost s = .next s) ∧
    (∃ s', exec (.tbSteparmWrite v) s = .next s' ∧ s' = { s with tbr := s'.tbr } ∧ s'.tbr.syncEn = v.getLsbD 63 ∧ s'.tbr.interval = (v.extractLsb' 0 32).toNat ∧
      (v.getLsbD 62 = true → s.job.started = true → s'.tbr.serr = true ∧ s'.tbr.steparm = t.steparm) ∧ (v.getLsbD 62 = true → s.job.started = false → s'.tbr.steparm = true)) ∧
    (v.getLsbD 5 = true → v.getLsbD 4 = true → exec (.tbRoleWrite v) s = .next s) ∧
    (v.getLsbD 5 = true → v.getLsbD 4 = false → exec (.tbRoleWrite v) s =
      .next { s with tbr := { t with root := true, upv := false, up := (v.extractLsb' 0 3).toNat, state := 2, depth := 0, rootId := s.chipId, freq := 0 } }) ∧
    (v.getLsbD 5 = false → t.root = false → exec (.tbRoleWrite v) s = .next { s with tbr := { t with root := false, upv := v.getLsbD 4, up := (v.extractLsb' 0 3).toNat } })

/-! ## The data mesh, the service network and the stacks -/

/-- R387, R395, R399, Table 19-8: a router is enabled, starts by its checks with each port at its first FWD or RED entry or stopped at a STOP, drains and stops; a route entry is written in OFF only, else WERR is set; the watchdog reports a waiting port once its window has passed, and never with a window of zero. -/
def Sys2Proof.Claims.RouterControl : Prop :=
  ∀ (s : State) (n : Node) (off : BitVec 14) (v : Word) (p : Fin 5), let r := s.router n.val
    let put (x : Router) : Out := .next (s.setRouter n.val x)
    (r.fsm.st = .off → exec (.routerEnable n) s = put { r with fsm := { r.fsm with en := true, st := .starting } }) ∧
    (r.fsm.st = .starting → s.routeRefused n.val = true → exec (.routerStart n) s = put { r with fsm := { r.fsm with st := .off, cerr := true, en := false } }) ∧
    (r.fsm.st = .starting → r.fsm.en = true → s.routeRefused n.val = false → ∃ s', exec (.routerStart n) s = .next s' ∧ s' = s.setRouter n.val (s'.router n.val) ∧
      (s'.router n.val).fsm = { r.fsm with st := .on, cerr := false } ∧ (s'.router n.val).failed = [] ∧ (s'.router n.val).stab = r.stab ∧ (s'.router n.val).sched = r.sched ∧
      ∀ q, q < 5 → let x : Port := { flits := (r.out q).flits, pst := 1, since := s.tb }
        (s'.router n.val).out q = r.passLoops q 1024 x ∧ (schedKind (r.entry q 0) = 1 ∨ schedKind (r.entry q 0) = 2 → (s'.router n.val).out q = x) ∧
          (schedKind (r.entry q 0) = 0 → (s'.router n.val).out q = { x with pst := 3 })) ∧
    (r.fsm.st = .starting → r.fsm.en = false → s.routeRefused n.val = false → ∃ s', exec (.routerStart n) s = .next s' ∧ s' = s.setRouter n.val (s'.router n.val) ∧
      (s'.router n.val).fsm = { r.fsm with st := .stopping, cerr := false } ∧ ∀ q, q < 5 → ((s'.router n.val).out q).pst = 3) ∧
    (r.fsm.st ≠ .starting → exec (.routerStart n) s = .next s) ∧
    (r.fsm.st = .on → exec (.routerDisable n) s = put { r with fsm := { r.fsm with en := false, st := .stopping } }) ∧
    (r.fsm.st = .stopping → r.fsm.pend = false → (∀ q ∈ r.ports, q.2.pst = 3 ∨ q.2.pst = 0) → exec (.routerStopComplete n) s =
      put { r with fsm := { r.fsm with st := .off }, ports := r.ports.map fun q => (q.1, { q.2 with pst := 0 }) }) ∧
    (r.fsm.st ≠ .stopping ∨ (∃ q ∈ r.ports, q.2.pst = 1) → exec (.routerStopComplete n) s = .next s) ∧
    (r.fsm.st ≠ .off → exec (.routeEntryWrite n off v) s = put { r with werr := true }) ∧
    (r.fsm.st = .off → 0x400 ≤ off.toNat → off.toNat < 0x800 → exec (.routeEntryWrite n off v) s = put { r with stab := cset 0 r.stab ((off.toNat - 0x400) / 8) v }) ∧
    (r.fsm.st = .off → 0x800 ≤ off.toNat → off.toNat < 0x3000 → exec (.routeEntryWrite n off v) s = put { r with sched := cset 0 r.sched ((off.toNat - 0x800) / 8) v }) ∧
    (r.wdog = 0 → exec (.routerStallWatchdog n p) s = .next s) ∧
    (r.fsm.st = .on ∨ r.fsm.st = .stopping → r.wdog ≠ 0 → (r.ready p.val).told = false → s.portWaits n.val p.val = true → (r.ready p.val).since + 1024 * r.wdog.toNat ≤ s.tb →
      exec (.routerStallWatchdog n p) s = .next ((s.setRouter n.val { r.setOut p.val { r.ready p.val with told := true } with stall := r.stall ||| BitVec.ofNat 5 (2 ^ p.val) }).routerRecord
        n.val 0x09 0 p.val (r.ready p.val).pc))

/-- R380, R381, R385, R386, R387, R397, R398: the oldest flit on the wire joins the buffer of its input when the stream table takes its stream there and a place is free, with the marks of its uncorrectable words and the count of its corrected ones, else it is discarded and the streams of the input fail, as they do for an uncorrectable sideband; a port at a FWD entry sends the oldest flit that it has still to take, in order, to the next node when a credit is held, and sends nothing without one. -/
def Sys2Proof.Claims.MeshForwarding : Prop :=
  ∀ (s : State) (n : Node) (p : Fin 5) (f : Flit) (fs : List Flit) (w : Word) (x : FlitEcc), let r := s.router n.val
    let room := bufUsed (r.buf p.val) < 32
    (s.wire n.val p.val = [] ∨ ¬room → exec (.flitArrival n p x) s = .next s) ∧
    (s.wire n.val p.val = f :: fs → room → r.stabOf f.stream = some w → stabIn w = p.val → stabOut w ≠ 0 →
      exec (.flitArrival n p {}) s = .next ((s.setWire n.val p.val fs).setRouter n.val (r.setBuf p.val (r.buf p.val ++ [{ f := f }]))) ∧
      (x.sideband = false → let s1 := (s.setWire n.val p.val fs).countFixed n.val x.corrections
        exec (.flitArrival n p x) s = .next ((if x.words = 0 then s1 else s1.routerRecord n.val 0x06 1 p.val f.stream).setRouter n.val
          (r.setBuf p.val (r.buf p.val ++ [{ f := { f with psn := f.psn ||| x.words } }]))))) ∧
    (s.wire n.val p.val = f :: fs → room → x.sideband = true → r.streamsAt p.val = [] →
      exec (.flitArrival n p x) s = .next (((s.setWire n.val p.val fs).countFixed n.val x.corrections).routerRecord n.val 0x07 2 p.val 0)) ∧
    (s.wire n.val p.val = f :: fs → room → (r.stabOf f.stream = none ∨ r.stabOf f.stream = some w ∧ stabIn w ≠ p.val) → r.streamsAt p.val = [] →
      exec (.flitArrival n p {}) s = .next ((s.setWire n.val p.val fs).routerRecord n.val 0x07 2 p.val 0)) ∧
    (s.portRuns n.val p.val = false → exec (.schedFwd n p) s = .next s ∧ exec (.schedRed n p) s = .next s) ∧
    (∀ (e st : Word) (m i : Nat), s.dead = false → r.fsm.st = .on → (r.out p.val).pst = 1 → e = r.entry p.val (r.out p.val).pc → schedKind e = 1 →
      meshNext n.val p.val = some (m, i) → m < 3552 → r.stabOf (schedStream e) = some st → stabOut st = 2 ^ p.val → r.failed = [] →
      r.buf (stabIn st) = [{ f := f }] → f.stream = schedStream e →
      (s.credit m i = true → (r.out p.val).sent + 1 < schedCount e → ∃ r', exec (.schedFwd n p) s = .next ((s.setRouter n.val r').putFlits m i [f]) ∧
        r'.buf (stabIn st) = [] ∧ r'.out p.val = { r.out p.val with flits := (r.out p.val).flits + 1, sent := (r.out p.val).sent + 1, since := s.tb, told := false } ∧
        r'.stab = r.stab ∧ r'.sched = r.sched ∧ r'.fsm = r.fsm) ∧
      (s.credit m i = true → schedCount e ≤ (r.out p.val).sent + 1 → ∃ r', exec (.schedFwd n p) s = .next ((s.setRouter n.val r').putFlits m i [f]) ∧
        r'.buf (stabIn st) = [] ∧ (r'.out p.val).flits = (r.out p.val).flits + 1 ∧ (r'.out p.val).sent = 0 ∧ r'.stab = r.stab ∧ r'.sched = r.sched ∧ r'.fsm = r.fsm) ∧
      (s.credit m i = false → ∃ r', exec (.schedFwd n p) s = .next (s.setRouter n.val r') ∧ r'.buf (stabIn st) = [{ f := f }] ∧ r'.out p.val = r.out p.val))

/-- R391, R392, Table 12-5: a RED entry sends the lane-wise sum of the data flits of its two streams, with their poison marks joined and OVF set once a sum left the format, header flits unchanged; streams that do not keep step fail with their record. -/
def Sys2Proof.Claims.MeshReduction : Prop :=
  (∀ (ty out : Nat) (sticky : Bool) (x y : Flit), x.data.length = 64 → y.data.length = 64 →
    (x.hd = true → (reduceFlit ty out sticky x y).1.data = x.data) ∧
    (reduceFlit ty out sticky x y).1.psn = x.psn ||| y.psn ∧ (reduceFlit ty out sticky x y).1.stream = out ∧
    (reduceFlit ty out sticky x y).1.hd = x.hd ∧ (reduceFlit ty out sticky x y).1.tr = x.tr ∧ (reduceFlit ty out sticky x y).2 = ((reduceFlit ty out sticky x y).1.ovf && !x.tr) ∧
    (sticky = true ∨ x.ovf = true ∨ y.ovf = true → (reduceFlit ty out sticky x y).1.ovf = true) ∧
    (x.hd = false → (reduceFlit 1 out sticky x y).1.data.length = 64 ∧ ∀ i, i < 16 →
      let a := sextNat (leNat ((x.data.drop (4 * i)).take 4)) 32
      let b := sextNat (leNat ((y.data.drop (4 * i)).take 4)) 32
      sextNat (leNat (((reduceFlit 1 out sticky x y).1.data.drop (4 * i)).take 4)) 32 = max (-2147483648) (min 2147483647 (a + b)) ∧
      (¬(-2147483648 ≤ a + b ∧ a + b ≤ 2147483647) → (reduceFlit 1 out sticky x y).1.ovf = true))) ∧
  (∀ (s : State) (n : Node) (p : Fin 5) (x y : Flit) (e sa sb : Word) (m i : Nat), let r := s.router n.val
    s.dead = false → r.fsm.st = .on → (r.out p.val).pst = 1 → e = r.entry p.val (r.out p.val).pc → schedKind e = 2 → meshNext n.val p.val = some (m, i) → m < 3552 →
    s.credit m i = true → r.failed = [] → r.oldest (schedStream e) p.val = some x → r.oldest (schedB e) p.val = some y →
    (x.hd = y.hd → x.tr = y.tr → ∃ r', exec (.schedRed n p) s = .next ((s.setRouter n.val r').putFlits m i
      [(reduceFlit (schedType e) (schedOut e) (r.out p.val).sticky x y).1]) ∧ r'.stab = r.stab ∧ r'.sched = r.sched) ∧
    (x.hd ≠ y.hd → ∃ s', exec (.schedRed n p) s = .next s' ∧ ((s'.router n.val).out p.val).pst = 3 ∧ (s'.router n.val).failed = [schedOut e] ∧ s'.wires = s.wires))

/-- Routers: control, forwarding and reduction: RouterControl, MeshForwarding and MeshReduction together. -/
def Obligations.MeshRouters : Prop :=
  Sys2Proof.Claims.RouterControl ∧ Sys2Proof.Claims.MeshForwarding ∧ Sys2Proof.Claims.MeshReduction

/-- R404: a packet at its destination with the next expected number of its flow is accepted and acknowledged, and its read of a scratchpad is answered; a repeated one is acknowledged again and does nothing; a later one is discarded. The acknowledgement frees the source's copy. After 4,096 ticks without one the source sends again, also what has been accepted, and the eighth time it gives up, which for a read or write is error kind 8. -/
def Obligations.ServiceNetwork : Prop :=
  ∀ (s : State) (p : SvcPkt) (o n : Nat), s.svc.out = [p] →
    let k := seqKey p.src p.dst p.cls
    let want := mget 0 s.svc.expect k
    (0 < o → exec (.svcPacketArrival o) s = .next s ∧ exec (.svcAckArrival o) s = .next s ∧ exec (.svcResendTimeout o) s = .next s) ∧
    (p.arrived = true → exec (.svcPacketArrival 0) s = .next s ∧ exec (.svcAckArrival 0) s = .next { s with svc := { s.svc with out := [] } }) ∧
    (p.arrived = false → exec (.svcAckArrival 0) s = .next s) ∧
    (p.arrived = false → p.foreign = false → unitChip p.dst = s.chipId → unitLocal p.dst = unitMc → s.colHolds p = false → p.body = .read p.addr 8 → saOff p.addr % 8 = 0 → want < 65536 →
      (p.seq = want → s.unitAnswers p.dst p.addr = true → let t : State := { s with svc := { s.svc with expect := mset s.svc.expect k ((want + 1) % 65536), out := [{ p with arrived := true }] } }
        exec (.svcPacketArrival 0) s = .next (t.svcSend p.dst p.addr p.back p.xid (.readResp (leBytes 8 (t.mgmtRead (saOff p.addr)).toNat) .int []))) ∧
      (p.seq < want → want - p.seq ≤ 32768 → exec (.svcPacketArrival 0) s = .next { s with svc := { s.svc with out := [{ p with arrived := true }] } }) ∧
      (want < p.seq → p.seq < want + 32768 → exec (.svcPacketArrival 0) s = .next s)) ∧
    (p.foreign = false → unitChip p.dst = s.chipId →
      (s.tb < p.sentAt + 4096 → exec (.svcResendTimeout 0) s = .next s) ∧
      (p.sentAt + 4096 ≤ s.tb → p.tries < 7 → exec (.svcResendTimeout 0) s = .next { s with svc := { s.svc with out := [{ p with sentAt := s.tb, tries := p.tries + 1 }] } }) ∧
      (p.sentAt + 4096 ≤ s.tb → 7 ≤ p.tries → p.body = .read p.addr n → exec (.svcResendTimeout 0) s = .next { s with svc := { s.svc with out := [], inbox := s.svc.inbox ++
        [{ unit := p.src, src := p.src, addr := p.back, back := p.addr, xid := p.xid, body := .err 8 }] } }))

/-- R436 to R438, R444, R445: an accepted write of whole words stores its bytes, every other byte of every stack as before, and is acknowledged; an accepted read answers the bytes that the stack holds; while a refresh window is open nothing is accepted, a stack that is not ON answers error kind 5, and a command whose parity fails again in its retry error kind 9 (Table 14-1). A request of an earlier write of its transfer waits (R311). -/
def Sys2Proof.Claims.StackAccess : Prop :=
  ∀ (s : State) (h : Fin 6) (j : Fin 16) (m : InMsg) (r : List InMsg) (key : Nat) (mesh : Bool) (x : Ecc), let k := s.stk h.val
    (s.tb < k.winEnd → exec (.hbmAccept h j mesh x) s = .next s) ∧
    (k.winEnd ≤ s.tb → s.egress (memNode h.val j.val) = none →
      exec (.hbmAccept h j true x) s = .next s ∧
      (s.svc.inbox = [] → s.hif.bar = [] → exec (.hbmAccept h j false x) s = .next s) ∧
      (s.svc.inbox = m :: r → m.unit = unitOf s.chipId (unitHbm h.val j.val) → m.phys = some key → (s.took r).olderWrite h.val m = true → exec (.hbmAccept h j false x) s = .next s) ∧
      (s.svc.inbox = m :: r → m.unit = unitOf s.chipId (unitHbm h.val j.val) → m.phys = some key → (s.took r).olderWrite h.val m = false →
        let pc := 2 * j.val + keyPc key % 2
        let t := (s.took r).setStk h.val { k with slots := mset k.slots pc 0 }
        let tp := t.parity h.val (keyPc key) x
        (k.fsm.st ≠ .on → exec (.hbmAccept h j false x) s = .next (tp.svcSend m.unit m.addr m.back m.xid (.err 5))) ∧
        (k.fsm.st = .on → 2 ≤ x.par → exec (.hbmAccept h j false x) s = .next (tp.svcSend m.unit m.addr m.back m.xid (.err 9))) ∧
        (x.par = 0 → tp = t) ∧
        (∀ (a : Word) (d : List Byte) (nw : Bool) (tg : Tag), k.fsm.st = .on → m.body = .write a d [] nw tg → key % 32 = 0 → d.length % 32 = 0 → k.mark = [] → k.mem.wf = true →
          ∃ mem, exec (.hbmAccept h j false {}) s = .next ((t.setStk h.val { t.stk h.val with mem := mem }).svcSend m.unit m.addr m.back m.xid .ack) ∧
            ∀ i, rdByte mem i = if key ≤ i ∧ i < key + d.length then d.getD (i - key) 0 else rdByte k.mem i) ∧
        (∀ (a : Word) (n : Nat), k.fsm.st = .on → m.body = .read a n → k.mark = [] →
          exec (.hbmAccept h j false {}) s = .next (t.svcSend m.unit m.addr m.back m.xid (.readResp (rdBytes k.mem key n) .raw [])))))

/-- R446 to R451: patrol scrub reads the next word in order, from a free accept slot or in a maintenance period, and ends a pass with its count, its overdue pass recorded once; a bank is refreshed on a stack that is ON outside paced jobs; a paced job's refresh window opens at its boundary for 280 ticks; a reading above 85 °C begins doubled refresh with a record and one at or below ends it; a soft repair of a row that the Drip found faulty counts and is kept in NOR, and its failure is recorded. -/
def Sys2Proof.Claims.StackMaintenance : Prop :=
  ∀ (s : State) (h : Fin 6) (pc : Fin 32) (row : Nat) (temp : BitVec 8) (x : Ecc), let k := s.stk h.val
    let put (y : Hbm) : Out := .next (s.setStk h.val y)
    (k.fsm.st ≠ .on → ∀ i ∈ [Instr.patrolScrubRead h x, .patrolOverdue h, .bankRefresh h pc, .softRepair h pc row ⟨true, x⟩, .softRepair h pc row ⟨false, x⟩, .doubledRefreshBegin h temp,
        .doubledRefreshEnd h temp, .refreshWindow h], exec i s = .next s) ∧
    (k.fsm.st = .on →
      (let w := scrubKey k.scrubWord / 32
       k.patrol = true → s.mc.drip.st = .on → s.maintNow = true → k.winEnd ≤ s.tb → (s.pacedJob = true ∨ s.channelIdle h.val (keyPc (32 * w) / 2) = true) →
        (k.scrubWord + 1 < stackWords → exec (.patrolScrubRead h {}) s = put { k with scrubWord := k.scrubWord + 1 }) ∧
        (k.scrubWord + 1 = stackWords → exec (.patrolScrubRead h {}) s = put { k with scrubWord := 0, passes := k.passes + 1, passFrom := s.tb, late := false }) ∧
        (w ∈ x.ce → x.ue = [] → k.scrubWord + 1 < stackWords → ∃ s', exec (.patrolScrubRead h x) s = .next s' ∧ (s'.stk h.val).ce = k.ce + 1 ∧ (s'.stk h.val).ue = k.ue ∧
          (s'.stk h.val).mem = k.mem ∧ (s'.stk h.val).scrubWord = k.scrubWord + 1) ∧
        (∀ bits, x.ue = [(w, bits)] → k.scrubWord + 1 < stackWords → ∃ s', exec (.patrolScrubRead h x) s = .next s' ∧ (s'.stk h.val).ue = k.ue + 1 ∧
          (s'.stk h.val).mem = wrBytes k.mem (32 * w) ((bits ++ List.replicate 32 0).take 32) ∧ (s'.stk h.val).marked w = true ∧ (s'.stk h.val).scrubWord = k.scrubWord + 1)) ∧
      (k.patrol = true → k.late = false → k.passFrom + 4 * 3600 * 1000000000 ≤ s.tb → exec (.patrolOverdue h) s =
        .next ((s.setStk h.val { k with late := true }).siteRecord h.val 0 0x11 0 0 k.passes)) ∧
      (k.patrol = false ∨ k.late = true ∨ s.tb < k.passFrom + 4 * 3600 * 1000000000 → exec (.patrolOverdue h) s = .next s) ∧
      (s.pacedJob = false → exec (.bankRefresh h pc) s = put { k with bank := mset k.bank pc.val (mget 0 k.bank pc.val + 1) } ∧ exec (.refreshWindow h) s = .next s) ∧
      (s.pacedJob = true → exec (.bankRefresh h pc) s = .next s) ∧
      (s.pacedJob = true → s.job.per ≠ 0 → let due := max k.due (s.job.t0 + if s.hot h.val then 1950 else 3900)
        let b := s.job.t0 + (due - s.job.t0 + s.job.per - 1) / s.job.per * s.job.per
        (b ≤ s.tb → exec (.refreshWindow h) s = put { k with winEnd := b + 280, due := due + if s.hot h.val then 1950 else 3900 }) ∧
        (s.tb < b → exec (.refreshWindow h) s = .next s)) ∧
      (s.mc.drip.st = .on → s.maintNow = true → k.winEnd ≤ s.tb → (s.pacedJob = true ∨ s.channelIdle h.val (pc.val / 2) = true) → k.rowBad pc.val row = true →
        exec (.softRepair h pc row ⟨true, {}⟩) s = .next { s.setStk h.val { k with
          ppr := k.ppr + 1
          fixed := k.fixed ++ [(pc.val, row)]
          found := k.found.filter fun w => !inRow pc.val row w
          weak := k.weak.filter fun p => !inRow pc.val row p.1 } with nor := { s.nor with repairs := s.nor.repairs ++ [(h.val, pc.val, row)] } } ∧
        exec (.softRepair h pc row ⟨false, x⟩) s = .next (s.siteRecord h.val pc.val 0x10 0 pc.val row)) ∧
      (k.rowBad pc.val row = false → exec (.softRepair h pc row ⟨true, x⟩) s = .next s) ∧
      (85 < temp.toNat → s.hot h.val = false → exec (.doubledRefreshBegin h temp) s =
        .next ((s.setStk h.val { k with temp := temp.toNat, doubled := true }).siteRecord h.val 0 0x12 0 0 temp.toNat)) ∧
      (s.hot h.val = true → exec (.doubledRefreshBegin h temp) s = put { k with temp := temp.toNat }) ∧
      (temp.toNat ≤ 85 → exec (.doubledRefreshBegin h temp) s = put { k with temp := temp.toNat }) ∧
      (temp.toNat ≤ 85 → s.pacedJob = false → exec (.doubledRefreshEnd h temp) s = put { k with temp := temp.toNat, doubled := false }) ∧
      (85 < temp.toNat ∨ s.pacedJob = true → exec (.doubledRefreshEnd h temp) s = put { k with temp := temp.toNat }))

/-- R443, R453, Table 19-8: a region and a stack are enabled, start or are refused, and stop by the common state machine; a stack that an entry still covers refuses its disable; a stack that has started holds zero in every byte and no mark. -/
def Sys2Proof.Claims.RegionsAndStacks : Prop :=
  ∀ (s : State) (n : Fin 16) (h : Fin 6), let r := s.region n.val
    let k := s.stk h.val
    let putR (f : EnFsm) : Out := .next (s.setRegion n.val { r with fsm := f })
    let putS (x : Hbm) : Out := .next (s.setStk h.val x)
    (r.fsm.st = .off → exec (.regionEnable n) s = putR { r.fsm with en := true, st := .starting }) ∧
    (r.fsm.st = .starting → r.fsm.en = true → s.regionRefused n.val = false → exec (.regionStartComplete n) s = putR { r.fsm with st := .on, cerr := false }) ∧
    (r.fsm.st = .starting → s.regionRefused n.val = true → exec (.regionStartComplete n) s = putR { r.fsm with st := .off, cerr := true, en := false }) ∧
    (r.fsm.st = .on → exec (.regionDisable n) s = .next (s.setRegion n.val { r with fsm := { r.fsm with en := false, st := .stopping }, stopAt := s.tb, stops := r.stops + 1 })) ∧
    (r.fsm.st = .stopping → r.fsm.pend = false → exec (.regionStopComplete n) s = putR { r.fsm with st := .off }) ∧
    (s.sitePresent h.val = false → exec (.stackEnable h) s = .next s ∧ exec (.stackDisable h) s = .next s) ∧
    (s.sitePresent h.val = true → k.fsm.st = .off → exec (.stackEnable h) s = putS { k with fsm := { k.fsm with en := true, st := .starting } }) ∧
    (s.sitePresent h.val = true → k.fsm.st = .on → s.regions = [] → exec (.stackDisable h) s = putS { k with fsm := { k.fsm with en := false, st := .stopping } }) ∧
    (s.sitePresent h.val = true → (∃ q ∈ s.regions, q.2.fsm.st ≠ .off ∧ h.val ∈ s.covered q.2) → exec (.stackDisable h) s = putS { k with refused := true }) ∧
    (k.fsm.st = .starting → k.fsm.en = true → exec (.stackStartComplete h true) s =
      putS { k with fsm := { k.fsm with st := .on, cerr := false }, mem := [], mark := [], passFrom := s.tb, late := false, scrubWord := 0 }) ∧
    (k.fsm.st = .starting → exec (.stackStartComplete h false) s = putS { k with fsm := { k.fsm with st := .off, cerr := true, en := false } }) ∧
    (k.fsm.st = .stopping → k.fsm.pend = false → exec (.stackStopComplete h) s = putS { k with fsm := { k.fsm with st := .off }, temp := 0, doubled := false, found := [], weak := [], fixed := [] })

/-- HBM: accesses, maintenance, and the enables of stacks and regions: StackAccess, StackMaintenance and RegionsAndStacks together. -/
def Obligations.HbmStacks : Prop :=
  Sys2Proof.Claims.StackAccess ∧ Sys2Proof.Claims.StackMaintenance ∧ Sys2Proof.Claims.RegionsAndStacks

/-- R439, R440: the translation of an entry is one to one: two offsets of the entry that reach the same byte of the same stack are the same offset, and every byte reached lies in the entry's block range of a stack that the entry covers. -/
def Obligations.TranslationInjective : Prop :=
  ∀ (s : State) (r : Region) (a b : Nat), let p := s.coveredPcs r
    0 < p → r.size % (256 * p) = 0 → r.pbase + r.size / (256 * p) ≤ pcBlocks → r.mode ≤ 3 → (r.mode = 3 → r.ch < 16) →
    r.vbase ≤ a → a < r.vbase + r.size → r.vbase ≤ b → b < r.vbase + r.size →
    let x := s.translateIn r a
    let y := s.translateIn r b
    (x.1 = y.1 → hbmKey x.2.1 x.2.2.1 x.2.2.2 = hbmKey y.2.1 y.2.2.1 y.2.2.2 → a = b) ∧
    x.2.1 < 32 ∧ x.2.2.2 < 256 ∧ r.pbase ≤ x.2.2.1 ∧ x.2.2.1 < r.pbase + r.size / (256 * p) ∧ (r.mode ≠ 3 → x.1 ∈ s.covered r)

/-! ## Power, host interface, jobs, bring-up, security and service -/

/-- R408 to R410, R623, R624, Table 21-4: a request that arrives while a load is in progress waits for its end. An off request is refused with RCAUSE 6 while another is in progress or the other half is off, and with its own cause while the half is in use; else the drain begins. The drain ends when every packet that was in the half when it began has been acknowledged, or 20 µs have passed: its clusters, ports and stacks are OFF, its stacks and their contents gone, its regulator disabled, the other half as before. An on request asserts the regulator's enable, and power-good ends it. -/
def Sys2Proof.Claims.PowerHalves : Prop :=
  ∀ (s : State) (east : Bool), let h := s.half east
    (s.dead = true → exec (.halfOffRequest east) s = .next s ∧ exec .halfOffDrainEnd s = .next s ∧ exec (.halfOnRequest east) s = .next s) ∧
    (s.halfAsked east = true → exec (.halfOffRequest east) s = .next s) ∧
    (s.dead = false → s.hif.job = 1 →
      (s.halfAsked east = false → exec (.halfOffRequest east) s = .next (({ s with pwr := { s.pwr with waits := s.pwr.waits ++ [(east, true)] } } : State).askHalf east true)) ∧
      (s.halfAsked east = true → exec (.halfOnRequest east) s = .next (({ s with pwr := { s.pwr with waits := s.pwr.waits ++ [(east, false)] } } : State).askHalf east false))) ∧
    (s.dead = false → s.halfAsked east = false → exec (.halfOnRequest east) s = .next s) ∧
    (s.dead = false → s.halfAsked east = false → s.hif.job ≠ 1 →
      (s.pwr.busy = true ∨ (s.half (!east)).on = false → exec (.halfOffRequest east) s = .next { s with pwr := { s.pwr with rcause := 6 } }) ∧
      (s.pwr.busy = false → (s.half (!east)).on = true → (∀ p ∈ s.routers, p.2.crosses p.1 = false) →
        ((∃ p ∈ s.cores, clEast (lcCluster p.1) = east ∧ p.2.part ≠ 0) → exec (.halfOffRequest east) s = .next { s with pwr := { s.pwr with rcause := 2 } }) ∧
        (s.cores = [] → s.blx = [] → s.regions = [] → ∃ s', exec (.halfOffRequest east) s = .next s' ∧ s' = { s with pwr := s'.pwr } ∧ s'.pwr.busy = true ∧ s'.pwr.rcause = 0 ∧
          s'.half east = { h with drain := some s.tb } ∧ s'.half (!east) = s.half (!east) ∧ s'.halfAsked east = true ∧ s'.halfAsked (!east) = s.halfAsked (!east)))) ∧
    (s.dead = false → s.halfAsked east = true → s.hif.job ≠ 1 →
      (s.pwr.busy = true → exec (.halfOnRequest east) s = .next s) ∧
      (s.pwr.busy = false → ∃ s', exec (.halfOnRequest east) s = .next s' ∧ s' = { s with pwr := s'.pwr } ∧ s'.pwr.busy = true ∧ s'.half east = { h with vren := true } ∧
        s'.half (!east) = s.half (!east) ∧ s'.halfAsked east = false)) ∧
    (h.on = true ∨ h.vren = false → exec (.halfPowerGood east) s = .next s) ∧
    (h.on = false → h.vren = true → s.pwr.busy = true → s.halfAsked east = false → ∃ s', exec (.halfPowerGood east) s = .next s' ∧ s' = { s with pwr := s'.pwr } ∧
      s'.pwr.busy = false ∧ s'.half east = { h with on := true } ∧ s'.half (!east) = s.half (!east)) ∧
    ((∀ b, (s.half b).drain = none) → exec .halfOffDrainEnd s = .next s) ∧
    (s.dead = false → (s.half (!east)).drain = none → ∀ t, h.drain = some t →
      (s.tb < t + 20000 → (∃ p ∈ s.svc.out, (s.unitIn' east p.dst = true ∨ s.unitIn' east p.src = true) ∧ p.born < t ∧ s.colHolds p = false) → exec .halfOffDrainEnd s = .next s) ∧
      (t + 20000 ≤ s.tb ∨ (∀ p ∈ s.svc.out, (s.unitIn' east p.dst = false ∧ s.unitIn' east p.src = false) ∨ t ≤ p.born ∨ s.colHolds p = true) → ∃ s', exec .halfOffDrainEnd s = .next s' ∧ s'.pwr.busy = false ∧ s'.half east = { h with on := false, vren := false, drain := none } ∧
        s'.half (!east) = s.half (!east) ∧ (∀ n, n < 48 → clEast n = east → s.clPresent n = true → (s'.cl n).st = .off) ∧ (∀ k, k < 8 → portEast k = east → (s'.port k).fsm.st = .off) ∧
        (∀ i, i < 6 → siteEast i = east → (s'.stk i).fsm.st = .off ∧ (s'.stk i).mem = []) ∧ (∀ i, siteEast i ≠ east → s'.stk i = s.stk i) ∧
        (∀ n, n < 48 → clEast n ≠ east → s'.cl n = s.cl n) ∧ s'.fuses = s.fuses ∧ s'.nor = s.nor ∧ s'.hif = s.hif))

/-- R612, R613, R617 to R622, R674: the governor moves a half's setpoint by one step of 5 mV at the end of each window of 1 ms, down above the power or temperature limit and up below both with margin, between its floor and its upper limit; on a paced job held at its floor POWER_OVER rises with its cause, its record and its sensor event. THROTTLE_N sets and clears its pin, a thermal trip drives THERMTRIP_N, takes both regulators off and fails the chip, and a measured wear offset only rises, in steps of 5 mV up to 40. -/
def Sys2Proof.Claims.Governor : Prop :=
  ∀ (s : State) (mw hot mv : Nat) (east : Bool), let p := s.pwr
    let k := s.tb / 1000000
    let mean := mw + p.fixed * 1000
    let exc := p.cap * 1000 < mean ∨ p.tlim < hot
    let f (h : Half) : Nat := if h.vp ≠ 0 ∧ (s.hif.job = 2 ∨ s.hif.job = 3) then h.vp + h.wear else 550
    let u (h : Half) : Nat := max (h.tgt + h.wear) (f h)
    (s.dead = true ∨ k ≤ p.ended → exec (.governorWindowEnd mw hot) s = .next s) ∧
    (s.dead = false → p.ended < k →
      (p.pover = false → p.floorbrk = false → s.job.paced = false → exc → ∃ s', exec (.governorWindowEnd mw hot) s = .next s' ∧ s' = { s with pwr := s'.pwr } ∧
        (∀ b, s'.half b = { s.half b with set := max (f (s.half b)) (min (u (s.half b)) ((s.half b).set - 5)) }) ∧ s'.pwr.pover = false ∧ s'.pwr.ended = k ∧ s'.pwr.mw = mean % 2 ^ 32 ∧ s'.pwr.hot = min 255 hot) ∧
      (p.pover = false → p.floorbrk = false → ¬ exc → ∃ s', exec (.governorWindowEnd mw hot) s = .next s' ∧ s' = { s with pwr := s'.pwr } ∧ s'.pwr.pover = false ∧ s'.pwr.ended = k ∧
        (mean * 100 < 97 * (p.cap * 1000) → hot + 3 ≤ p.tlim → (∃ b, (s.half b).set < u (s.half b)) → ∀ b, s'.half b = { s.half b with set := max (f (s.half b)) (min (u (s.half b)) ((s.half b).set + 5)) }) ∧
        (97 * (p.cap * 1000) ≤ mean * 100 ∨ p.tlim < hot + 3 → ∀ b, s'.half b = { s.half b with set := max (f (s.half b)) (min (u (s.half b)) (s.half b).set) })) ∧
      (p.pover = false → p.floorbrk = false → s.job.paced = true → s.hif.job = 3 → exc → (∀ b, (s.half b).set ≤ f (s.half b)) → ∃ s' t : State, exec (.governorWindowEnd mw hot) s = .next s' ∧
        t = { s with pwr := t.pwr } ∧ s' = (t.mcRecord 0x17 0 ((if p.cap * 1000 < mean then 1 else 0) + if p.tlim < hot then 2 else 0) (min t.pwr.w.set t.pwr.e.set)).sensorEvent 1 1 ∧
        t.pwr.pover = true ∧ t.pwr.ocause = (if p.cap * 1000 < mean then 1 else 0) + (if p.tlim < hot then 2 else 0) ∧ t.pwr.floorbrk = false ∧ ∀ b, (t.half b).set = f (s.half b))) ∧
    exec .throttleAssert s = .next { s with pins := { s.pins with throttle := true } } ∧
    exec .throttleRelease s = .next { s with pins := { s.pins with throttle := false } } ∧
    (∃ s', exec .thermtrip s = .next s' ∧ s'.pins = { s.pins with thermtrip := true } ∧ (∀ b, (s'.half b).vren = false) ∧ s'.hif.dev = 3 ∧ ∀ i, (s'.stk i).mem = (s.stk i).mem) ∧
    (s.mc.drip.st ≠ .on ∨ s.mc.dripFlags.getLsbD 0 = false → exec (.agingMeasure east mv) s = .next s) ∧
    (s.mc.drip.st = .on → s.mc.dripFlags.getLsbD 0 = true → s.job.paced = false → ∃ s', exec (.agingMeasure east mv) s = .next s' ∧ s' = { s with pwr := s'.pwr, nor := s'.nor } ∧
      s'.half (!east) = s.half (!east) ∧ (∃ w, s'.half east = { s.half east with wear := w } ∧ (s.half east).wear ≤ w ∧ w = max (s.half east).wear (min 40 ((mv + 4) / 5 * 5)) ∧
        (if east then s'.nor.wearE else s'.nor.wearW) = w) ∧ (s'.pwr.wearex = true ↔ p.wearex = true ∨ 40 < mv))

/-- Power: halves off and on, the governor, throttle, thermal trip and wear: PowerHalves and Governor together. -/
def Obligations.Power : Prop :=
  Sys2Proof.Claims.PowerHalves ∧ Sys2Proof.Claims.Governor

/-- R431, R432, R542, R544: a read behind the oldest unacknowledged writes goes to the host while Bus Master Enable is set; a completion acknowledges the writes before its read and answers it: its bytes as RAW, or error kind 9 when it is not a success. A doorbell outside a running job or of an absent core is ignored; it is not delivered before a host write that arrived before it; delivered, it pends software event 3 of the named threads of that core and of nothing else. -/
def Sys2Proof.Claims.HostWindow : Prop :=
  ∀ (s : State) (m : InMsg) (n tag len : Nat) (c : CoreId) (v : Word) (data : List Byte) (status : Nat) (ep : Bool), let h := s.hif
    (h.wins = [] ∨ h.bme = false → exec .hostWindowFlushRead s = .next s) ∧
    (h.wins = [m] → h.bme = true → exec .hostWindowFlushRead s = .next { s with hif := { h with tag := h.tag + 1, flush := h.flush ++ [(h.tag, 1)], out := h.out ++ [.read (BitVec.ofNat 64 (saOff m.addr)) 1 h.tag] } }) ∧
    ((∀ p ∈ h.flush, p.1 ≠ tag) → exec (.hostWindowReadCompletion tag data status ep) s = .next s) ∧
    (h.flush = [(tag, 0)] → h.reads = [(tag, m)] → m.body = .read m.addr len → let t : State := { s with hif := { h with flush := [], reads := [] } }
      (status ≠ 0 → exec (.hostWindowReadCompletion tag data status ep) s = .next (t.svcSend m.unit m.addr m.back m.xid (.err 9))) ∧
      (data.length = len → exec (.hostWindowReadCompletion tag data 0 false) s = .next (t.svcSend m.unit m.addr m.back m.xid (.readResp data .raw [])))) ∧
    (h.flush = [(tag, 1)] → h.reads = [] → h.wins = [m] → exec (.hostWindowReadCompletion tag data status ep) s =
      .next (({ s with hif := { h with flush := [], wins := [] } } : State).svcSend m.unit m.addr m.back m.xid .ack)) ∧
    (h.job ≠ 3 ∨ s.present c.val = false → exec (.doorbellWrite c v) s = .next s) ∧
    (h.job = 3 → s.present c.val = true → exec (.doorbellWrite c v) s = .next { s with hif := { h with bells := h.bells ++ [(c.val, (v.extractLsb' 0 8).toNat)] } }) ∧
    (h.bells = [] ∨ (∃ q ∈ h.bar, q.read = false ∧ q.bells = 0) → exec .doorbellDelivery s = .next s) ∧
    (∀ r, h.bells = (c.val, n) :: r → (∀ q ∈ h.bar, q.read = true ∨ q.bells ≠ 0) → (s.coreAt c.val).held = false → ∃ s', exec .doorbellDelivery s = .next s' ∧
      s' = { s with hif := { h with bells := r, bar := h.bar.map fun q => { q with bells := q.bells - 1 } }, cores := s'.cores } ∧
      (∀ l, l ≠ c.val → s'.coreAt l = s.coreAt l) ∧ s'.coreAt c.val = { s.coreAt c.val with thr := (s'.coreAt c.val).thr } ∧
      ∀ t, (s'.coreAt c.val).thread t = if t < (s.env c.val).nthr ∧ n.testBit t then { (s.coreAt c.val).thread t with xpend := ((s.coreAt c.val).thread t).xpend ||| 8 } else (s.coreAt c.val).thread t)

/-- R543, R546 to R548, R553, Tables 18-6 to 18-8: a command is fetched only while both rings and Bus Master Enable are on and firmware runs; one with an unknown OP completes with status 1. QUERY, in every state of DEV but BOOTING, writes its 256 bytes; STOP ends a running job with exit code 1 and is refused with status 2 outside LOADING and RUNNING; MAP with a misaligned or reserved field completes with status 1, else writes its window entry. A completion is written at its ring's TAIL with its PHASE. -/
def Obligations.CommandRing : Prop :=
  ∀ (s : State) (c : HCmd) (tag op status : Nat) (res : Word), let h := s.hif
    let q := h.cmdq
    let z : State := { s with hif := { h with cmds := [] } }
    (h.bme = false ∨ q.en = false ∨ h.cplq.en = false ∨ q.head = q.tail ∨ s.brg.phase < 3 ∨ s.mc.fatal = true ∨ s.brg.fcause ≠ 0 → exec (.cmdFetch c) s = .next s) ∧
    (s.fetches = true → let t : State := { s with hif := { h with cmdq := { q with head := (q.head + 1) % 2 ^ q.log2n } } }
      (1 ≤ c.op → c.op ≤ 7 → exec (.cmdFetch c) s = .next { t with hif := { t.hif with cmds := h.cmds ++ [c] } }) ∧
      (c.op = 0 ∨ 7 < c.op → exec (.cmdFetch c) s = .next (t.complete c.tag c.op 1 0))) ∧
    (h.cmds = [] → ∀ i ∈ [Instr.query, .map, .stop], exec i s = .next s) ∧
    (h.owed = [] → h.bme = true → h.cplq.en = true → h.msixEn = true → (h.cplq.tail + 2 ^ h.cplq.log2n - h.cplq.head) % 2 ^ h.cplq.log2n + 1 < 2 ^ h.cplq.log2n →
      let t := (h.cplq.tail + 1) % 2 ^ h.cplq.log2n
      s.complete tag op status res = { s with hif := { h with cplq := { h.cplq with tail := t, phase := if t = 0 then !h.cplq.phase else h.cplq.phase }, out := h.out ++ [.write (h.cplq.base + BitVec.ofNat 64 (16 * h.cplq.tail)) (leBytes 8 (pack [(tag, 0, 16), (op, 16, 8), (status, 24, 8), (if h.cplq.phase then 1 else 0, 32, 1)]).toNat ++ leBytes 8 res.toNat), .msix 0] } }) ∧
    (h.cmds = [c] → c.op = 4 →
      (c.plain 1 = false → exec .query s = .next (z.complete c.tag 4 1 0)) ∧
      (c.plain 1 = true → h.dev = 0 → exec .query s = .next (z.complete c.tag 4 2 0)) ∧
      (c.plain 1 = true → h.dev ≠ 0 → exec .query s = .next (({ z with hif := { z.hif with out := h.out ++ [.write (c.word 1) s.queryReply] } } : State).complete c.tag 4 0 0))) ∧
    s.queryReply.length = 256 ∧
    (h.cmds = [c] → c.op = 3 → c.plain 0 = true →
      (h.dev = 0 ∨ h.dev = 3 ∨ (h.job ≠ 1 ∧ h.job ≠ 3) → exec .stop s = .next (z.complete c.tag 3 2 0)) ∧
      (h.dev = 1 → h.job = 3 → ∃ s', exec .stop s = .next s' ∧ s'.hif.job = 4 ∧ s'.hif.exit = 1 ∧ (∀ i, (s'.stk i).mem = (s.stk i).mem) ∧ s'.fuses = s.fuses ∧
        (∀ l, (s.coreAt l).held = false → (s'.coreAt l).park = true) ∧ ∀ n, (s'.router n).fsm.st ≠ .on)) ∧
    (h.cmds = [c] → c.op = 6 → s.running = false → let a := (c.word 1).toNat
      let n := (c.word 2).toNat
      let w := c.word 3
      let i := (w.extractLsb' 0 4).toNat
      (a % 4096 ≠ 0 ∨ n % 4096 ≠ 0 ∨ w.extractLsb' 4 4 ≠ 0 ∨ w.extractLsb' 10 54 ≠ 0 → exec .map s = .next (z.complete c.tag 6 1 0)) ∧
      (c.plain 3 = true → a % 4096 = 0 → n % 4096 = 0 → w.extractLsb' 4 4 = 0 → w.extractLsb' 10 54 = 0 →
        (h.dev = 3 → exec .map s = .next (z.complete c.tag 6 2 0)) ∧
        (h.dev ≠ 3 → n ≠ 0 → exec .map s = .next (({ z with hif := { z.hif with hwt := mset h.hwt i { addr := a, len := n, read := w.getLsbD 8, write := w.getLsbD 9 } } } : State).complete c.tag 6 0 0)) ∧
        (h.dev ≠ 3 → n = 0 → exec .map s = .next (({ z with hif := { z.hif with hwt := mdel h.hwt i } } : State).complete c.tag 6 0 0))))

/-- R323, R410, R550 to R554, R581, Table 18-6: LOAD waits while a power request is in progress, is refused with status 2 outside READY and CLEAN, and ends ENDED with status 7 when its loadable could not be read; an empty loadable for this chip becomes LOADED. START is accepted 50,000 ticks ahead and clears the completion counters, is refused with status 8 when it names an earlier tick, and at its tick the job is RUNNING. A non-zero exit code ends a job in LOADING, LOADED or RUNNING, with its routers stopping. RESET clears: JOB CLEARING, then CLEAN with HBM, regions and the host window empty; with its warm bit it runs bring-up again from phase 2. -/
def Obligations.JobLife : Prop :=
  ∀ (s : State) (c : HCmd) (v : Word) (b : List Byte) (secs : List Sec), let h := s.hif
    let z : State := { s with hif := { h with cmds := [] } }
    let exitCode : BitVec 32 := v.extractLsb' 0 32
    (h.cmds = [] → ∀ i ∈ [Instr.load (some b) secs, .start, .resetJobClear, .resetWarm], exec i s = .next s) ∧
    (h.cmds = [c] → c.op = 1 → s.pwr.busy = true → exec (.load (some b) secs) s = .next s) ∧
    (h.cmds = [c] → c.op = 1 → s.running = false → s.pwr.busy = false → c.plain 2 = true → c.word 2 ≠ 0 →
      (h.dev ≠ 1 ∨ h.job ≠ 0 ∨ s.fuses.lc = 0 → exec (.load (some b) secs) s = .next (z.complete c.tag 1 2 0)) ∧
      (h.dev = 1 → h.job = 0 → s.fuses.lc ≠ 0 → h.owed = [] →
        (∃ s', exec (.load none secs) s = .next s' ∧ s'.hif.job = 4 ∧ s'.cores = s.cores ∧ s'.hbm = s.hbm) ∧
        (s.headerGood b (c.word 2).toNat = true → tableGood b (c.word 2).toNat [] = true → numAt b 10 2 = 0 → s.pwr.w.on = true → s.pwr.e.on = true →
          ∃ s', exec (.load (some b) []) s = .next s' ∧ s'.hif.job = 2 ∧ s'.hbm = s.hbm ∧ s'.sec.mrAt 5 = Config.sha256 (digestBytes (s.sec.mrAt 5) ++ digestBytes (Config.sha256 b)) ∧
            ∀ l, (s'.coreAt l).imem = (s.coreAt l).imem ∧ (s'.coreAt l).spad = (s.coreAt l).spad))) ∧
    (h.cmds = [c] → c.op = 2 → s.running = false → c.plain 1 = true → let t := (c.word 1).toNat
      (h.dev ≠ 1 ∨ h.job ≠ 2 → exec .start s = .next (z.complete c.tag 2 2 0)) ∧
      (h.dev = 1 → h.job = 2 → t ≠ 0 → t < s.tb + 50000 → exec .start s = .next (z.complete c.tag 2 8 0)) ∧
      (h.dev = 1 → h.job = 2 → t = 0 ∨ s.tb + 50000 ≤ t → ∃ s', exec .start s = .next s' ∧ s'.job.start = some (c.tag, if t = 0 then s.tb + 50000 else t) ∧
        s'.job.t0 = (if t = 0 then s.tb + 50000 else t) + s.job.t0off ∧ s'.job.started = true ∧ s'.hif = z.hif ∧ s'.hbm = s.hbm ∧
        ∀ l k, (s.coreAt l).held = false → k < 48 → (s'.coreAt l).scAt k = 0 ∧ (s'.coreAt l).scBrk.getLsbD k = false)) ∧
    (s.job.start = none → exec .startTick s = .next s) ∧
    (∀ tag at_, s.job.start = some (tag, at_) → (s.tb < at_ → exec .startTick s = .next s) ∧
      (at_ ≤ s.tb → s.job.toStart = [] → exec .startTick s = .next ((({ s with job := { s.job with start := none } } : State).setJob 3).complete tag 2 0 (BitVec.ofNat 64 at_)))) ∧
    (exitCode = 0 ∨ h.job = 0 ∨ 4 ≤ h.job → exec (.jobExitWrite v) s = .next s) ∧
    (exitCode ≠ 0 → 1 ≤ h.job → h.job ≤ 3 → ∃ s', exec (.jobExitWrite v) s = .next s' ∧ s'.hif.job = 4 ∧ s'.hif.exit = exitCode ∧ (∀ i, (s'.stk i).mem = (s.stk i).mem) ∧
      (∀ l, (s'.coreAt l).spad = (s.coreAt l).spad ∧ (s'.coreAt l).imem = (s.coreAt l).imem) ∧ ∀ n, (s'.router n).fsm.st ≠ .on) ∧
    (h.cmds = [c] → c.op = 5 → c.resetGood = true → (c.word 1).getLsbD 0 = false → exec .resetWarm s = .next s ∧
      (h.dev = 3 → exec .resetJobClear s = .next (z.complete c.tag 5 2 0)) ∧
      (h.dev ≠ 3 → ∃ s', exec .resetJobClear s = .next s' ∧ s'.hif.job = 5 ∧ s'.hif.clearTags = h.clearTags ++ [c.tag] ∧ (∀ i, (s'.stk i).mem = (s.stk i).mem) ∧
        ∀ l, s.present l = true → s.clPresent (lcCluster l) = true → l < 3072 → (s.cl (lcCluster l)).st ≠ .off → (s'.coreAt l).spad = {} ∧ (s'.coreAt l).imem = [])) ∧
    (h.job ≠ 5 → exec .jobClearComplete s = .next s) ∧
    (h.job = 5 → ∃ s', exec .jobClearComplete s = .next s' ∧ s'.hif.job = 0 ∧ s'.hif.hwt = [] ∧ s'.hif.clearTags = [] ∧ s'.regions = [] ∧ s'.wires = [] ∧ s'.cores = s.cores ∧
      (∀ i, (s'.stk i).mem = []) ∧ (∀ n, (s'.router n).fsm.st = .off ∧ (s'.router n).stab = [] ∧ (s'.router n).sched = []) ∧ s'.job = { started := s.job.started }) ∧
    (h.cmds = [c] → c.op = 5 → (c.word 1).getLsbD 0 = true → exec .resetJobClear s = .next s ∧
      (c.resetGood = false → exec .resetWarm s = .next (z.complete c.tag 5 1 0)) ∧
      (c.resetGood = true → ∃ s', exec .resetWarm s = .next s' ∧ s'.brg.phase = 2 ∧ s'.hif.dev = 0 ∧ s'.hif.job = 0 ∧ s'.cores = [] ∧ s'.hbm = [] ∧ s'.tb = 0 ∧ s'.fuses = s.fuses ∧ s'.nor = s.nor ∧
        s'.hif.warmTags = h.warmTags ++ h.clearTags ++ [c.tag]))

/-- R538, R545, R561, Tables 18-4 and 23-9: a hot reset clears the rings and the telemetry block and touches neither the chip nor the job; a ring with 2^4 to 2^12 entries is enabled empty, any other size is not; MSIX_RAISE raises vectors 3 to 63 and no other, pending while the function cannot send; a configuration request is answered with Request Retry Status until firmware runs, and after with the vendor ID and the part's device ID, and it writes Bus Master Enable. -/
def Sys2Proof.Claims.HostRegisters : Prop :=
  ∀ (s : State) (v : Word) (i : Nat) (bme msix : Option Bool), let h := s.hif
    (∃ s', exec .hotReset s = .next s' ∧ s' = { s with hif := s'.hif, tel := {} } ∧
      s'.hif = { h with exit := 0, cmdq := {}, cplq := {}, evq := {}, evlost := 0, evunrep := 0, bme := false, msixEn := false, msixPba := [], msixTab := [], bar := s'.hif.bar } ∧ (∀ q ∈ s'.hif.bar, q ∈ h.bar ∧ q.read = false)) ∧
    (h.owed = [] → let n := (v.extractLsb' 0 4).toNat
      ((h.cmdq.en = true → exec (.hostRingEnable 0 v) s = .next { s with hif := { h with cmdq := { h.cmdq with en := v.getLsbD 63 } } }) ∧
      (h.cmdq.en = false → v.getLsbD 63 = true → 4 ≤ n → n ≤ 12 → exec (.hostRingEnable 0 v) s = .next { s with hif := { h with cmdq := { h.cmdq with en := true, log2n := n, head := 0, tail := 0, phase := true } } }) ∧
      (h.cplq.en = false → v.getLsbD 63 = true → 4 ≤ n → n ≤ 12 → exec (.hostRingEnable 1 v) s = .next { s with hif := { h with cplq := { h.cplq with en := true, log2n := n, head := 0, tail := 0, phase := true } } }) ∧
      (h.evq.en = false → v.getLsbD 63 = true → 4 ≤ n → n ≤ 12 → exec (.hostRingEnable 2 v) s = .next { s with hif := { h with evq := { h.evq with en := true, log2n := n, head := 0, tail := 0, phase := true } } }) ∧
      (h.cmdq.en = false → v.getLsbD 63 = true → n < 4 ∨ 12 < n → exec (.hostRingEnable 0 v) s = .next s))) ∧
    (v.toNat < 8 → exec (.msixRaise v) s = .next s) ∧
    (3 ≤ i → i < 64 → v = BitVec.ofNat 64 (2 ^ i) →
      (h.msixEn = true → h.bme = true → exec (.msixRaise v) s = .next { s with hif := { h with out := h.out ++ [.msix i] } }) ∧
      (h.msixEn = false ∨ h.bme = false → exec (.msixRaise v) s = .next { s with hif := { h with msixPba := if h.msixPba.contains i then h.msixPba else h.msixPba ++ [i] } })) ∧
    (s.brg.phase = 0 → exec (.configRequest bme msix) s = .next s) ∧
    (1 ≤ s.brg.phase → s.brg.phase ≤ 2 → s.brg.pushing = false → h.dev ≠ 3 → exec (.configRequest bme msix) s = .next { s with hif := { h with out := h.out ++ [.cfg true 0 0] } }) ∧
    (1 ≤ s.brg.phase → 3 ≤ s.brg.phase ∨ s.brg.pushing = true ∨ h.dev = 3 → h.owed = [] → h.msixPba = [] → exec (.configRequest bme msix) s =
      .next { s with hif := { h with bme := bme.getD h.bme, msixEn := msix.getD h.msixEn, out := h.out ++ [.cfg false Config.vendorId (0x0D10 + s.fuses.part)] } })

/-- R432, R437, R448, R540, R541, R561: the host's accesses are carried out in order; one behind another, or one that a refresh window holds, waits. While DEV is neither READY nor HELD, or outside what is mapped, present and on, an aperture access is Unsupported Request with its AER report and record and changes nothing else; else BAR2 reads the bytes of the stack and stores the bytes written, and BAR4 reads and stores the scratchpad's, the words written RAW, or POISON with EP = 1. -/
def Sys2Proof.Claims.Apertures : Prop :=
  ∀ (s : State) (a n hh key : Nat) (d : List Byte) (ep : Bool), let h := s.hif
    let refused (o : Out) (read : Bool) : Prop := ∃ s', o = .next s' ∧ s' = { s with hif := { h with out := h.out ++ (if read then [.cpl [] false true, .aer] else [.aer]) }, errs := s'.errs }
    (h.bar = [] → (h.dev ≠ 1 ∧ h.dev ≠ 2) ∨ (s.runsOf unitPcie a n = none ∧ s.runsOf unitPcie a d.length = none) → refused (exec (.hostBar2Read a n {}) s) true ∧ refused (exec (.hostBar2Write a d ep {}) s) false) ∧
    (h.bar ≠ [] ∨ ((h.dev = 1 ∨ h.dev = 2) ∧ (s.stk hh).fsm.st = .on ∧ s.inWindow hh = true ∧ s.runsOf unitPcie a n = some [(0, hh, key, n)] ∧ s.runsOf unitPcie a d.length = some [(0, hh, key, d.length)]) →
      exec (.hostBar2Read a n {}) s = .next { s with hif := { h with bar := h.bar ++ [{ bar4 := false, read := true, addr := a, len := n, bells := h.bells.length }] } } ∧
      exec (.hostBar2Write a d ep {}) s = .next { s with hif := { h with bar := h.bar ++ [{ bar4 := false, read := false, addr := a, len := d.length, data := d, ep := ep, bells := h.bells.length }] } }) ∧
    (h.bar = [] → h.dev = 1 ∨ h.dev = 2 → (s.stk hh).fsm.st = .on → (s.stk hh).mark = [] → s.inWindow hh = false → s.slotFree hh (keyPc key) = true →
      (s.runsOf unitPcie a n = some [(0, hh, key, n)] → s.meshFirst hh (keyPc key / 2) key n = false → exec (.hostBar2Read a n {}) s =
        .next ((s.setStk hh ((s.stk hh).slot (keyPc key) false)).setHif { h with out := h.out ++ [.cpl (rdBytes (s.stk hh).mem key n) false false] })) ∧
      (s.runsOf unitPcie a d.length = some [(0, hh, key, d.length)] → s.meshFirst hh (keyPc key / 2) key d.length = false → (s.stk hh).mem.wf = true → ∃ s', exec (.hostBar2Write a d false {}) s = .next s' ∧ s' = s.setStk hh (s'.stk hh) ∧
        (s'.stk hh).fsm = (s.stk hh).fsm ∧ ∀ i, rdByte (s'.stk hh).mem i = if key ≤ i ∧ i < key + d.length then d.getD (i - key) 0 else rdByte (s.stk hh).mem i)) ∧
    (let l := a / 524288
     let o := a % 524288
     let c := s.coreAt l
     (h.bar ≠ [] → exec (.hostBar4Read a n) s = .next { s with hif := { h with bar := h.bar ++ [{ bar4 := true, read := true, addr := a, len := n, bells := h.bells.length }] } } ∧
        exec (.hostBar4Write a d ep) s = .next { s with hif := { h with bar := h.bar ++ [{ bar4 := true, read := false, addr := a, len := d.length, data := d, ep := ep, bells := h.bells.length }] } }) ∧
     (h.bar = [] → (h.dev ≠ 1 ∧ h.dev ≠ 2) ∨ ((s.env l).spadBytes < o + n ∧ (s.env l).spadBytes < o + d.length) ∨ h.job = 5 ∨ 3072 ≤ l ∨ s.present l = false ∨ (s.half (clEast (lcCluster l))).on = false ∨ (s.cl (lcCluster l)).st = .off ∨ (s.cl (lcCluster l)).st = .starting →
        refused (exec (.hostBar4Read a n) s) true ∧ refused (exec (.hostBar4Write a d ep) s) false) ∧
     (h.bar = [] → h.dev = 1 ∨ h.dev = 2 → h.job ≠ 5 → l < 3072 → s.present l = true → (s.half (clEast (lcCluster l))).on = true → (s.cl (lcCluster l)).st = .on →
        (o + n ≤ (s.env l).spadBytes → (∀ i, i < n → c.spad.tagAt (o + i) ≠ .empty ∧ c.spad.tagAt (o + i) ≠ .poison) →
          exec (.hostBar4Read a n) s = .next { s with hif := { h with out := h.out ++ [.cpl (rdBytes c.spad.bytes o n) false false] } }) ∧
        (o + d.length ≤ (s.env l).spadBytes → c.spad.bytes.wf = true → ∃ s', exec (.hostBar4Write a d ep) s = .next s' ∧ s' = s.setCore l { c with spad := (s'.coreAt l).spad } ∧ ∀ i,
          rdByte (s'.coreAt l).spad.bytes i = (if o ≤ i ∧ i < o + d.length then d.getD (i - o) 0 else rdByte c.spad.bytes i) ∧
          (o ≤ i → i < o + d.length → (s'.coreAt l).spad.tagAt i = if ep then .poison else .raw))))

/-- The host window, doorbells, apertures, and host interface registers: HostWindow, Apertures and HostRegisters together. -/
def Obligations.HostAccesses : Prop :=
  Sys2Proof.Claims.HostWindow ∧ Sys2Proof.Claims.Apertures ∧ Sys2Proof.Claims.HostRegisters

/-- R557 to R563, R570, R579, R580, R591, R595, R603, R649, R679, R680: a cold reset leaves the reset state with the fuses, SPI NOR, the strap pins and what the host has received; its release begins phase 1. A phase that ends records its time and the next begins; phase 3 of a part just PROVISIONED burns a secret drawn then, and the hash of the top tree's root; a failed fuse sense, a scrapped part or a part that cannot boot is DEV FAILED with its cause. The last phase of a stand-alone chip with nothing held makes DEV READY. BRG.ACCEPT takes causes that are held, and with every one accepted a HELD chip is READY. -/
def Obligations.ResetsAndBringup : Prop :=
  ∀ (s : State) (v : Word) (x : PhaseEnd), let b := s.brg
    let cold (p : Pins) : State := { State.reset with pending := s.pending, fuses := s.fuses, nor := s.nor, hif := { out := s.hif.out }, sec := { nonce := s.sec.nonce + 1 }, pins := p }
    exec .coldReset s = .next (cold { pwrgood := s.pins.pwrgood, throttle := s.pins.throttle, thermtrip := s.pins.thermtrip, bootsrc := s.pins.bootsrc, gpioIn := s.pins.gpioIn }) ∧
    exec .pwrgoodFall s = .next (cold { throttle := s.pins.throttle, bootsrc := s.pins.bootsrc, gpioIn := s.pins.gpioIn }) ∧
    (b.phase ≠ 0 → exec .coldResetRelease s = .next s) ∧
    (b.phase = 0 → exec .coldResetRelease s = .next { s with brg := { b with phase := 1 }, pins := { s.pins with pwrgood := true, perst := true } }) ∧
    (s.hif.dev = 3 ∨ b.phase = 0 ∨ 9 ≤ b.phase → exec (.bringupPhaseEnd x) s = .next s) ∧
    (s.hif.dev = 0 → b.phase = 1 → x.failed = false → exec (.bringupPhaseEnd x) s = .next { s with brg := { b with straps := x.straps % 4, ptb := mset b.ptb 1 s.tb, phase := 2 }, pins := { s.pins with bootsrc := x.straps % 4 } }) ∧
    (s.hif.dev = 0 → b.phase = 1 → x.failed = true → ∃ s', exec (.bringupPhaseEnd x) s = .next s' ∧ s'.hif.dev = 3 ∧ s'.brg = { b with fcause := 1, pushing := false }) ∧
    (s.hif.dev = 0 → b.phase = 2 → b.pushing = false →
      (x.failed = true → ∃ s', exec (.bringupPhaseEnd x) s = .next s' ∧ s'.hif.dev = 3 ∧ s'.brg.fcause = 2) ∧
      (x.failed = false → s.fuses.kill = true ∨ s.fuses.lc = 4 → ∃ s', exec (.bringupPhaseEnd x) s = .next s' ∧ s'.hif.dev = 3 ∧ s'.brg.fcause = 3) ∧
      (x.failed = false → s.fuses.kill = false → s.fuses.lc < 4 → b.straps % 2 = 1 → exec (.bringupPhaseEnd x) s = .next { s with brg := { b with pushing := true } }) ∧
      (∀ img a, x.failed = false → s.fuses.kill = false → s.fuses.lc < 4 → b.straps % 2 = 0 → s.norImage = some (img, a) → ∃ s', exec (.bringupPhaseEnd x) s = .next s' ∧
        s' = { s with sec := s'.sec, brg := { b with image := img, src := false, pushing := false, ptb := mset b.ptb 2 s.tb, phase := 3 } } ∧
        s'.sec.mrAt 1 = Config.sha256 (digestBytes (s.sec.mrAt 1) ++ digestBytes (Config.sha256 (img.take 256))) ∧ s'.sec.image = numAt img 11 1 ∧ s'.sec.fwver = numAt img 12 4)) ∧
    (s.hif.dev = 0 → b.phase = 3 → ∃ s', exec (.bringupPhaseEnd x) s = .next s' ∧ s'.brg.phase = 4 ∧ s'.brg.umap.devid = 0x0D10 + s.fuses.part ∧
      (∀ e, (s'.half e).on = !s.pins.thermtrip ∧ (s'.half e).vren = !s.pins.thermtrip) ∧ s'.pwr.w.wear = s.nor.wearW ∧ s'.pwr.e.wear = s.nor.wearE ∧ s'.cores = s.cores ∧
      (s.fuses.lc = 1 → s.fuses.secret = none → s.fuses.kill = false → x.vfuse = true → s'.fuses = { s.fuses with secret := some (Config.secret s.sec.nonce), rootHash := s'.fuses.rootHash } ∧
        ∃ k, s'.fuses.topKeys = some k ∧ s'.fuses.rootHash = Config.sha256 ((treePublic 15 k).drop 24)) ∧
      (s.fuses.lc ≠ 1 ∨ s.fuses.secret ≠ none ∨ s.fuses.kill = true ∨ x.vfuse = false → s'.fuses = s.fuses)) ∧
    (s.hif.dev = 0 → 4 ≤ b.phase → b.phase ≤ 7 → ∃ s', exec (.bringupPhaseEnd x) s = .next s' ∧ s'.brg.phase = b.phase + 1 ∧ mget 0 s'.brg.ptb b.phase = s.tb ∧ s'.hif.dev = 0 ∧ s'.tb = s.tb) ∧
    (s.hif.dev = 0 → b.phase = 8 → b.topo = none → b.hold = 0 → s.mapShort = false → (∀ k, k < 8 → (s.port k).miswired = false) → ∃ s', exec (.bringupPhaseEnd x) s = .next s' ∧
      s'.hif.dev = 1 ∧ s'.chipId = 0 ∧ s'.tbr.root = true ∧ s'.brg.phase = 9 ∧ s'.hif.job = s.hif.job ∧ s'.hif.warmTags = [] ∧ s'.cores = s.cores) ∧
    (s.hif.dev = 0 → b.phase = 8 → b.topo = none → b.hold ≠ 0 → ∃ s', exec (.bringupPhaseEnd x) s = .next s' ∧ s'.hif.dev = 2 ∧ s'.brg.phase = 9 ∧ s'.cores = s.cores) ∧
    (let acc := b.acc ||| (v.extractLsb' 8 5 &&& b.hold)
     (s.hif.dev ≠ 2 ∨ b.hold &&& ~~~acc ≠ 0 → exec (.brgAccept v) s = .next { s with brg := { b with acc := acc } }) ∧
     (s.hif.dev = 2 → b.hold &&& ~~~acc = 0 → ∃ s', exec (.brgAccept v) s = .next s' ∧ s'.hif.dev = 1 ∧ s' = { s with brg := { b with acc := acc }, hif := s'.hif }))

/-- R584, R646, R647, R649, R654: a present cluster of a half that is on is enabled and disabled, one that is absent ignores it; its start releases its cores from reset wiped; disabled, its cores park, and once every one is parked it enters core reset and is OFF. A cluster reset empties its cores and leaves every other cluster's core as it was. The third missed heartbeat is recorded with the reset of its cluster. -/
def Obligations.Clusters : Prop :=
  ∀ (s : State) (n : Fin 48) (pc : BitVec 48), let f := s.cl n.val
    (s.brg.umap.clusters.getLsbD n.val = false ∨ (s.half (clEast n.val)).on = false → exec (.clusterEnable n) s = .next s ∧ exec (.clusterDisable n) s = .next s) ∧
    (s.brg.umap.clusters.getLsbD n.val = true → (s.half (clEast n.val)).on = true →
      (f.st = .off → exec (.clusterEnable n) s = .next (s.setCl n.val { f with en := true, st := .starting }) ∧ exec (.clusterDisable n) s = .next (s.setCl n.val f)) ∧
      (f.st = .on → exec (.clusterEnable n) s = .next (s.setCl n.val f) ∧ ∃ s', exec (.clusterDisable n) s = .next s' ∧ s'.cl n.val = { f with en := false, st := .stopping } ∧
        (∀ l, lcCluster l ≠ n.val ∨ 3072 ≤ l → s'.coreAt l = s.coreAt l) ∧
        ∀ l, l < 3072 → lcCluster l = n.val → s.present l = true → (s.coreAt l).held = false → (s'.coreAt l).park = true ∧ (s'.coreAt l).spad = (s.coreAt l).spad)) ∧
    (f.st ≠ .starting → exec (.clusterStartComplete n) s = .next s) ∧
    (f.st = .starting → s.clPresent n.val = false → exec (.clusterStartComplete n) s = .next (s.setCl n.val { f with st := .off, cerr := true, en := false })) ∧
    (f.st = .starting → f.en = true → s.clPresent n.val = true → ∃ s', exec (.clusterStartComplete n) s = .next s' ∧ s'.cl n.val = { f with st := .on, cerr := false } ∧
      (∀ l, l < 3072 → lcCluster l = n.val → s.present l = true → (s'.coreAt l).held = false ∧ (s'.coreAt l).spad = {} ∧ (s'.coreAt l).imem = []) ∧
      ∀ l, lcCluster l ≠ n.val ∨ 3072 ≤ l → s'.coreAt l = s.coreAt l) ∧
    (f.st ≠ .stopping ∨ (∃ l, l < 3072 ∧ lcCluster l = n.val ∧ s.present l = true ∧ (s.coreAt l).allParked (s.env l) = false) → exec (.clusterStopComplete n) s = .next s) ∧
    (f.st = .stopping → f.pend = false → (∀ l, l < 3072 → lcCluster l = n.val → s.present l = true → (s.coreAt l).allParked (s.env l) = true) → ∃ s', exec (.clusterStopComplete n) s = .next s' ∧
      s'.cl n.val = { f with st := .off } ∧ ∀ l, l < 3072 → lcCluster l = n.val → s.present l = true → (s'.coreAt l).held = true ∧ (s'.coreAt l).spad = {}) ∧
    (∃ s', exec (.clusterReset n) s = .next s' ∧ s'.cls = s.cls ∧ s'.routers = s.routers ∧ s'.hbm = s.hbm ∧
      (∀ l, l < 3072 → lcCluster l = n.val → s.present l = true → (s'.coreAt l).spad = {} ∧ (s'.coreAt l).imem = [] ∧ (s'.coreAt l).held = (s.coreAt l).held) ∧
      ∀ l, lcCluster l ≠ n.val ∨ 3072 ≤ l → s'.coreAt l = s.coreAt l) ∧
    (s.dead = true ∨ s.clPresent n.val = false → exec (.ccHeartbeatMiss n pc true) s = .next s) ∧
    (s.dead = false → s.clPresent n.val = true →
      (mget 0 s.mc.beats n.val < 2 → exec (.ccHeartbeatMiss n pc true) s = .next { s with mc := { s.mc with beats := mset s.mc.beats n.val (mget 0 s.mc.beats n.val + 1) } }) ∧
      (mget 0 s.mc.beats n.val = 2 → exec (.ccHeartbeatMiss n pc true) s = exec (.clusterReset n) (s.recordAt 48 { cls := 0x1E, sev := 2, ukind := 2, lunit := n.val, detail := pc.toNat })))

/-- R587 to R592, R602 to R605, R658, R660, Tables 20-5, 20-8 and 20-10: a token of another form is refused with TERR 1, of another part with 2, and with another nonce with 3, and changes nothing else; an accepted one is measured into MR.6, draws a fresh nonce and has its TYPE's effect: DEBUG with its scope, RETURNED or SCRAPPED after the wipe that ends the job with exit code 2, a signer slot enabled or revoked, or the edit digest. Pushed firmware chunks assemble until the last, whose image runs if it verifies and is rejected with status 3 if not. -/
def Obligations.Tokens : Prop :=
  ∀ (s : State) (vfuse : Bool) (arg : Nat) (b : List Byte), let r : MgtReq := { mailbox := false, vfuse := vfuse, arg := arg, bytes := b }
    let side (t : State) (status : Nat) : Out := .next { t with hif := { t.hif with out := t.hif.out ++ [.sideband [BitVec.ofNat 8 status]] } }
    let rows : List (Nat × Instr) := [(1, .tokenUnlock r), (2, .tokenReturn r), (3, .tokenScrap r), (4, .tokenSlotEnable r), (5, .tokenSlotRevoke r), (6, .tokenFieldmapEdit r)]
    let terr (n : Nat) : State := { s with sec := { s.sec with terr := n } }
    (s.serves = false → ∀ i ∈ rows, exec i.2 s = .next s) ∧
    (s.serves = true → s.brg.pushing = false → b.length ≤ 32768 →
      (tokenForm b = false → ∀ i ∈ rows, exec i.2 s = if s.hif.dev = 0 then side s 2 else side (terr 1) 1) ∧
      (tokenForm b = true → ∀ i ∈ rows,
        (tokenType b ≠ i.1 → exec i.2 s = .next s) ∧
        (tokenType b = i.1 → s.hif.dev ≠ 0 →
          (numAt b 16 16 ≠ s.fuses.serial.toNat → exec i.2 s = side (terr 2) 4) ∧
          (numAt b 16 16 = s.fuses.serial.toNat → numAt b 32 32 ≠ (Config.nonce s.sec.nonce).toNat → exec i.2 s = side (terr 3) 4) ∧
          (s.tokenError b vfuse = 0 → ∃ t, exec i.2 s = side t 0 ∧ t.sec.terr = 0 ∧ t.sec.nonce = s.sec.nonce + 1 ∧
            t.sec.mrAt 6 = Config.sha256 (digestBytes (s.sec.mrAt 6) ++ digestBytes (Config.sha256 b)) ∧
            (i.1 = 1 → t.sec.debug = true ∧ t.sec.dscope = BitVec.ofNat 8 (numAt b 64 8) ∧ t.fuses = s.fuses) ∧
            (i.1 = 2 → s.fuses.lc = 2 ∧ t.fuses = { s.fuses with lc := 3 }) ∧
            (i.1 = 3 → s.fuses.lc = 3 ∧ t.fuses = { s.fuses with lc := 4, kill := true } ∧ t.hif.dev = 3) ∧
            (i.1 ≤ 3 → (1 ≤ s.hif.job → s.hif.job ≤ 3 → t.hif.exit = 2 ∧ t.hif.job = 4) ∧ (∀ l, (t.coreAt l).spad = {} ∧ (t.coreAt l).imem = []) ∧ ∀ h, (t.stk h).mem = []) ∧
            (4 ≤ i.1 → t = { s with fuses := t.fuses, sec := t.sec }) ∧
            (i.1 = 4 → vfuse = true ∧ t.fuses = { s.fuses with slotEn := s.fuses.slotEn ||| BitVec.ofNat 4 (2 ^ (numAt b 12 4 / 256 % 4)) }) ∧
            (i.1 = 5 → vfuse = true ∧ t.fuses = { s.fuses with slotRev := s.fuses.slotRev ||| BitVec.ofNat 4 (2 ^ (numAt b 12 4 / 256 % 4)) }) ∧
            (i.1 = 6 → t.sec.edit = some (BitVec.ofNat 256 (numAt b 80 32)) ∧ t.fuses = s.fuses))))) ∧
    (s.serves = true → b.length ≤ 32768 →
      (s.brg.pushing = false → exec (.firmwarePushChunk r) s = side s 2) ∧
      (s.brg.pushing = true → arg < 512 → exec (.firmwarePushChunk r) s =
        side { s with mbx := { s.mbx with push := wrBytes s.mbx.push (32768 * arg) b, pushLen := max s.mbx.pushLen (32768 * arg + b.length) } } 0) ∧
      (s.brg.pushing = true → arg = 2 ^ 31 → s.mbx.push = [] → s.mbx.pushLen = 0 →
        (s.imageGood b = false → s.brg.straps < 2 → exec (.firmwarePushChunk r) s = side s 3) ∧
        (s.imageGood b = true → ∃ t, exec (.firmwarePushChunk r) s = side t 0 ∧ t = { s with sec := t.sec, brg := { s.brg with image := b, src := true, pushing := false, ptb := mset s.brg.ptb 2 s.tb, phase := 3 } })))

/-- R590, R592 to R599, R606, R656 to R660, Tables 20-6, 23-6 and 23-7: a quote of a 32-byte nonce uses one leaf and answers the body of Table 20-6 with its signature; without a leaf it makes a claim first, which a reset may cut short with its index spent. The SVN is burned when READY, in FIELD, with COMMIT, fuse by fuse from the lowest. MR.7 is extended by EXTD. A topology descriptor governs from its last chunk, and not while a job is loaded; it, the field map and the certificate are read in pieces. Firmware goes to the slot that did not boot, or, refused or cut short, erases it. External debug is refused in FIELD without its token. A field map of a higher sequence number is stored. -/
def Obligations.Management : Prop :=
  ∀ (s : State) (vfuse : Bool) (arg n : Nat) (b : List Byte) (c : HCmd), let r : MgtReq := { mailbox := false, vfuse := vfuse, arg := arg, bytes := b }
    let box : MgtReq := { mailbox := true, vfuse := vfuse }
    let side (t : State) (status : Nat) (bs : List Byte) : Out := .next { t with hif := { t.hif with out := t.hif.out ++ [.sideband (BitVec.ofNat 8 status :: bs)] } }
    (s.serves = false → ∀ i ∈ [Instr.quote r, .ext7, .topologyWrite r, .topologyRead r, .fieldmapExport r, .certRead r, .debugPacket r, .pldmFwUpdate r, .pldmSensorRead r, .mctpControl r], exec i s = .next s) ∧
    (s.mbx.busy = false → ∀ i ∈ [Instr.quote box, .topologyWrite box, .topologyRead box, .fieldmapExport box, .certRead box, .debugPacket box, .firmwarePushChunk box], exec i s = .next s) ∧
    (s.serves = true → s.brg.pushing = false → s.mbx.busy = true → (s.mbx.req.extractLsb' 0 8).toNat = 7 → (s.mbx.req.extractLsb' 16 16).toNat ≤ 32768 → let bs := s.nor.cert.take 16384
      exec (.certRead box) s = .next { s with mbx := { s.mbx with busy := false, status := 0, rlen := bs.length, rspbuf := bs } }) ∧
    (s.serves = true → s.brg.pushing = false → b.length ≤ 32768 →
      (b.length ≠ 32 → exec (.quote r) s = side s 1 []) ∧
      (b.length = 32 → s.hif.dev = 0 ∨ s.fuses.lc = 0 ∨ s.fuses.lc = 4 → exec (.quote r) s = side s 2 []) ∧
      (b.length = 32 → s.hif.dev ≠ 0 → 1 ≤ s.fuses.lc → s.fuses.lc ≤ 3 → s.sec.idok = true → s.fuses.topKeys.isSome = true →
        (s.sec.left ≠ 0 → let sig := quoteSignature s.fuses s.nor.nodes s.sec.claim (1024 - s.sec.left) (s.quoteBody b)
          exec (.quote r) s = side { s with sec := { s.sec with left := s.sec.left - 1 } } 0 (s.quoteBody b ++ sig) ∧ sig.length = 5236 ∧ (s.quoteBody b).length = 384) ∧
        (s.sec.left = 0 → s.fuses.claims < 8192 → vfuse = true → exec (.quote { r with cut := true }) s =
          .next { s with fuses := { s.fuses with claims := s.fuses.claims + 1 }, sec := { s.sec with busy := true } }) ∧
        (s.sec.left = 0 → s.fuses.claims < 8192 → vfuse = false → exec (.quote r) s = side s 4 []) ∧
        (s.sec.left = 0 → s.fuses.claims < 8192 → vfuse = true → ∃ bs, exec (.quote r) s =
          side { s with fuses := { s.fuses with claims := s.fuses.claims + 1 }, sec := { s.sec with claim := s.fuses.claims, left := 1023 } } 0 bs ∧ bs.length = 5620) ∧
        (s.sec.left = 0 → 8192 ≤ s.fuses.claims → exec (.quote r) s = side s 4 [])) ∧
      exec .ext7 s = .next (s.extend 7 (BitVec.ofNat 256 (leNat ((List.range 4).flatMap fun i => leBytes 8 (mget (0 : Word) s.sec.extd i).toNat)))) ∧
      (s.hif.job ≠ 0 → exec (.topologyWrite r) s = side s 2 []) ∧
      (s.hif.job = 0 → arg = 2 ^ 31 → ∃ t, exec (.topologyWrite r) s = side t 0 [] ∧ t = { s with nor := t.nor, mbx := t.mbx } ∧ t.nor.topology = b ∧ t.nor.topoCur = !s.nor.topoCur) ∧
      (arg = 0 → ∃ t, exec (.topologyRead r) s = side t 0 (s.nor.topology.take 16384) ∧ t = { s with mbx := { s.mbx with snapT := s.nor.topology, staleT := false } }) ∧
      (arg = 0 → s.fmapInUse = none → exec (.fieldmapExport r) s = side { s with mbx := { s.mbx with snapF := [], staleF := false } } 0 []) ∧
      (0 < arg → arg < 2 ^ 31 → s.mbx.staleT = true → exec (.topologyRead r) s = side s 2 []) ∧
      (0 < arg → arg < 2 ^ 31 → s.mbx.staleF = true → exec (.fieldmapExport r) s = side s 2 []) ∧
      exec (.certRead r) s = side s 0 (s.nor.cert.take 16384) ∧
      (s.fuses.lc = 2 → s.sec.debug = false → exec (.debugPacket r) s = side s 2 []) ∧
      (s.fuses.lc = 3 → ∃ bs, exec (.debugPacket r) s = side { s with mbx := { s.mbx with asks := s.mbx.asks + 1 } } 0 bs) ∧
      exec (.pldmSensorRead r) s = side { s with mbx := { s.mbx with asks := s.mbx.asks + 1 } } 0 ((Config.sensorReply b s.sensors s.mbx.asks).take 16384) ∧
      (∃ bs, exec (.mctpControl r) s = side { s with mbx := { s.mbx with asks := s.mbx.asks + 1 } } 0 bs) ∧
      (let put (x : List Byte) : State := { s with nor := if s.sec.fromA then { s.nor with imgB := x } else { s.nor with imgA := x } }
       exec (.pldmFwUpdate { r with cut := true }) s = .next (put []) ∧ (s.imageGood b = true → exec (.pldmFwUpdate r) s = side (put b) 0 []) ∧ (s.imageGood b = false → exec (.pldmFwUpdate r) s = side (put []) 3 []))) ∧
    (s.hif.dev = 1 → s.fuses.lc = 2 → s.sec.commit = true → s.fuses.svn < s.sec.image → s.mc.fatal = false → exec (.svnCommit ⟨true, none⟩) s = .next { s with fuses := { s.fuses with svn := s.sec.image } } ∧
      exec (.svnCommit ⟨true, some (n)⟩) s = .next { s with fuses := { s.fuses with svn := min s.sec.image (s.fuses.svn + n) } }) ∧
    (s.hif.dev ≠ 1 ∨ s.fuses.lc ≠ 2 ∨ s.sec.commit = false ∨ s.sec.image ≤ s.fuses.svn → exec (.svnCommit ⟨vfuse, none⟩) s = .next s ∧ exec (.svnCommit ⟨vfuse, some (n)⟩) s = .next s) ∧
    exec (.jtagInstruction n) s = .next { s with sec := { s.sec with jtag := some (n, decide (n ≤ 1) || s.debugAllowed (if n = 3 then 1 else 0)) } } ∧
    (s.fuses.lc = 2 → s.sec.debug = false → s.debugAllowed 0 = false ∧ s.debugAllowed 1 = false) ∧
    (s.hif.cmds = [] → exec (.fieldmap (some b)) s = .next s) ∧
    (s.hif.cmds = [c] → c.op = 7 → s.running = false → let z : State := { s with hif := { s.hif with cmds := [] } }
      (c.plain 2 = false → exec (.fieldmap (some b)) s = .next (z.complete c.tag 7 1 0)) ∧
      (c.plain 2 = true → 0 < (c.word 2).toNat → (c.word 2).toNat ≤ 65536 →
        (s.hif.dev = 0 ∨ s.hif.dev = 3 → exec (.fieldmap (some b)) s = .next (z.complete c.tag 7 2 0)) ∧
        (s.hif.dev = 1 ∨ s.hif.dev = 2 → exec (.fieldmap none) s = .next (z.complete c.tag 7 7 0) ∧
          (s.sec.edit = none → fmapValid s.fuses b = false → exec (.fieldmap (some b)) s = .next (z.complete c.tag 7 10 0)) ∧
          (s.sec.edit = none → fmapValid s.fuses b = true → s.fmapInUse = none → 0 < fmapSeq b → exec (.fieldmap (some b)) s =
            .next (({ z with nor := { s.nor with fm0 := b }, mbx := { s.mbx with staleF := true } } : State).complete c.tag 7 0 0)))))

/-- R634, R635, R639, R662, R663, Tables 22-6, 23-8 and 23-9: the oldest record of a queue goes to the log ring, and the oldest of the log to the event ring, at its TAIL with vector 1, or is lost when that ring is full. A telemetry frame has 53,248 bytes and is written at its ring's TAIL at the end of each window, lost when the ring is full, and none is written while Bus Master Enable is off. TEL.CFG enables the ring with an interval of 1 to 60,000 ms and 2 to 256 frames. -/
def Obligations.LogAndTelemetry : Prop :=
  ∀ (s : State) (x : Rec) (q : Fin 49) (v : Word) (sensors lanes : List Byte), let h := s.hif
    let m := s.mc
    let t := s.tel
    let e := mget {} s.errs q.val
    (e.recs = [] ∨ s.dead = true → exec (.recordForward q) s = .next s) ∧
    (e.recs = [x] → e.unrep = 0 → s.dead = false → m.log.length < 4096 → exec (.recordForward q) s =
      .next { s with errs := mset s.errs q.val { e with recs := [] }, mc := { m with log := m.log ++ [x], total := m.total + 1 } }) ∧
    (m.total ≤ m.mirrored ∨ h.bme = false ∨ h.evq.en = false → exec .logMirror s = .next s) ∧
    (m.log = [x] → m.total = m.mirrored + 1 → h.bme = true → h.evq.en = true → let used := (h.evq.tail + 2 ^ h.evq.log2n - h.evq.head) % 2 ^ h.evq.log2n
      (2 ^ h.evq.log2n ≤ used + 1 → exec .logMirror s = .next { s with mc := { m with mirrored := m.mirrored + 1 }, hif := { h with evlost := h.evlost + 1, evunrep := h.evunrep + 1 } }) ∧
      (used + 1 < 2 ^ h.evq.log2n → h.msixEn = true → let i := (h.evq.tail + 1) % 2 ^ h.evq.log2n
        exec .logMirror s = .next { s with mc := { m with mirrored := m.mirrored + 1 }, hif := { h with evq := { h.evq with tail := i, phase := if i = 0 then !h.evq.phase else h.evq.phase }, evunrep := 0, out := h.out ++ [.write (h.evq.base + BitVec.ofNat 64 (32 * h.evq.tail)) ({ x with lost := min 65535 (x.lost + h.evunrep) } : Rec).bytes, .msix 1] } })) ∧
    x.bytes.length = 32 ∧ (s.telFrame sensors lanes).length = 53248 ∧
    (t.en = false ∨ s.dead = true ∨ s.brg.phase < 3 ∨ s.tb < (t.window + 1) * (t.interval * 1000000) → exec (.telemetryFrame sensors lanes) s = .next s) ∧
    (t.en = true → s.dead = false → 3 ≤ s.brg.phase → (t.window + 1) * (t.interval * 1000000) ≤ s.tb → let used := (t.tail + 2 ^ t.log2n - t.head) % 2 ^ t.log2n
      let t1 : Tel := { t with window := t.window + 1, prev := s.telCounts }
      (h.bme = false → exec (.telemetryFrame sensors lanes) s = .next { s with tel := t1 }) ∧
      (h.bme = true → 2 ^ t.log2n ≤ used + 1 → exec (.telemetryFrame sensors lanes) s = .next { s with tel := { t1 with lost := t.lost + 1, unrep := t.unrep + 1 } }) ∧
      (h.bme = true → used + 1 < 2 ^ t.log2n → let f := s.telFrame sensors lanes
        exec (.telemetryFrame sensors lanes) s = .next { s with hif := { h with out := h.out ++ [.write (t.base + BitVec.ofNat 64 (53248 * t.tail)) f] }, tel := { t1 with tail := (t.tail + 1) % 2 ^ t.log2n, unrep := 0, last := f, seq := t.seq + 1 } })) ∧
    (let i := (v.extractLsb' 8 16).toNat
     let n := (v.extractLsb' 0 4).toNat
     (t.en = true → exec (.telEnable v) s = .next { s with tel := { t with en := v.getLsbD 63 } }) ∧
     (t.en = false → v.getLsbD 63 = true → 1 ≤ i → i ≤ 60000 → 1 ≤ n → n ≤ 8 → exec (.telEnable v) s =
       .next { s with tel := { t with en := true, interval := i, log2n := n, head := 0, tail := 0, window := s.tb / (i * 1000000), prev := s.telCounts } }) ∧
     (t.en = false → v.getLsbD 63 = false ∨ i = 0 ∨ 60000 < i ∨ n = 0 ∨ 8 < n → exec (.telEnable v) s = .next { s with tel := { t with interval := i, log2n := n } }))

/-- R176, R629, R632, R640 to R645, Table 22-7: a fatal error makes DEV FAILED and is recorded in the log. A reported stream fails at its sink with a record. The Drip starts only in READY or HELD. Its tasks act only while it is ON, their bit is set and no paced period forbids it: a scrub records the corrected word, or marks the uncorrectable one and records it, and a word that an access meets is recorded whatever the Drip does; a self-test mismatch is first only remembered, and forgotten with a record when the repeat matches; a lane out of margin is spared and a sensor out of tolerance excluded. -/
def Obligations.ServiceErrors : Prop :=
  ∀ (s : State) (c : CoreId) (key : Fin 3) (d w48 : BitVec 48) (word : Nat) (bits : List Byte) (vxe sb : Bool) (k : Fin 8) (lane : Fin 9) (n : Nat), let m := s.mc
    let core := s.coreAt c.val
    let quiet (b : Nat) : Prop := m.drip.st ≠ .on ∨ m.dripFlags.getLsbD b = false ∨ s.dead = true
    let runs (b : Nat) : Prop := m.drip.st = .on ∧ m.dripFlags.getLsbD b = true ∧ s.dead = false ∧ s.job.paced = false
    let engine := core.eng (if vxe then 1 else 0)
    let unit := 2 * s.phys c.val + if vxe then 1 else 0
    let ran : State := if vxe then s else s.setCore c.val { core with mxe := core.mxe.afterKernel (s.phys c.val) }
    (s.hif.dev = 3 → exec (.fatalError key d) s = .next s) ∧
    (s.hif.dev ≠ 3 → ∃ s', exec (.fatalError key d) s = .next s' ∧ s'.hif.dev = 3 ∧ (∀ i, (s'.stk i).mem = (s.stk i).mem) ∧ s'.fuses = s.fuses ∧ (s'.mc.fatal = true ↔ key.val < 2) ∧
      s'.mc.log.getLast? = some { tb := s.tb, r := { cls := 0x1F, sev := 3, ukind := 7, key := key.val, detail := d.toNat }, chip := s.chipId }) ∧
    (m.fails = [] ∨ s.dead = true → exec .streamFailNotify s = .next s) ∧
    (∀ node st here sink name, m.fails = [{ node := node, stream := st, here := here }] → s.dead = false →
      (here = true ∧ sink = node ∧ name = st) ∨ (here = false ∧ s.sinks 4096 [(node, st)] = [(sink, name)] ∧ s.wire sink 5 = []) → 3456 ≤ sink →
      exec .streamFailNotify s = .next ((({ s with mc := { m with fails := [] } } : State).failStream sink (name + 1)).routerRecord sink 0x08 2 4 (nodePunit node))) ∧
    (m.drip.st = .off → exec .dripEnable s = .next { s with mc := { m with drip := { m.drip with en := true, st := .starting } } }) ∧
    (m.drip.st = .on → exec .dripDisable s = .next { s with mc := { m with drip := { m.drip with en := false, st := .stopping } } }) ∧
    (m.drip.st = .starting → m.drip.en = true → exec .dripStart s = .next { s with mc := { m with drip := if s.hif.dev = 1 ∨ s.hif.dev = 2 then { m.drip with st := .on, cerr := false } else { m.drip with st := .off, cerr := true, en := false } } }) ∧
    (m.drip.st ≠ .starting → exec .dripStart s = .next s) ∧ (m.drip.st ≠ .stopping → exec .dripStopComplete s = .next s) ∧
    (m.drip.st = .stopping → m.drip.pend = false → exec .dripStopComplete s = .next { s with mc := { m with drip := { m.drip with st := .off } } }) ∧
    (quiet 4 ∨ core.held = true ∨ engine.q ≠ [] → exec (.engineSelftest c vxe true sb w48) s = .next s) ∧
    (runs 4 → s.present c.val = true → core.held = false → (vxe = false → (s.env c.val).vcore = false) → engine.q = [] →
      (unit ∉ m.missed → exec (.engineSelftest c vxe true sb w48) s = .next { ran with mc := { m with missed := m.missed ++ [unit] } } ∧ exec (.engineSelftest c vxe false sb w48) s = .next ran) ∧
      (unit ∈ m.missed → exec (.engineSelftest c vxe false sb w48) s =
        .next (({ ran with mc := { m with missed := m.missed.filter (fun x => x != unit) } } : State).coreRecord c.val 0 0x18 0 (if vxe then 1 else 0) w48.toNat))) ∧
    (quiet 3 → exec (.spadScrub c (word / 16) { ue := [(word, bits)] }) s = .next s ∧ exec (.imemScrub c word true true) s = .next s) ∧
    (runs 3 → s.present c.val = true → core.held = false →
      (8 * word + 8 ≤ (s.env c.val).spadBytes → exec (.spadScrub c (word / 16) {}) s = .next s ∧
        exec (.spadScrub c (word / 16) { ce := [word] }) s = .next (s.coreRecord c.val 0 0x01 0 (word % 16) (8 * word)) ∧
        (mget [] m.ueAt (64 * s.phys c.val + word % 16) = [] → ∃ s', exec (.spadScrub c (word / 16) { ue := [(word, bits)] }) s = .next s' ∧
          s'.coreAt c.val = { core with spad := core.spad.setWord (8 * word) ⟨BitVec.ofNat 64 (leNat bits), .poison⟩ } ∧ s'.hbm = s.hbm ∧ s'.brg = s.brg)) ∧
      (word < 16384 → exec (.imemScrub c word false true) s = .next ((s.setCore c.val { core with imark := mset core.imark word true }).coreRecord c.val 0 0x02 1 0 (4 * word)) ∧
        exec (.imemScrub c word true false) s = .next (s.coreRecord c.val 0 0x02 0 0 (4 * word)) ∧ exec (.imemScrub c word false false) s = .next s)) ∧
    (s.present c.val = true → core.held = false → 8 * word + 8 ≤ (s.env c.val).spadBytes → word / 16 ≠ n → exec (.spadScrub c n { ce := [word] }) s = .next (s.coreRecord c.val 0 0x01 0 (word % 16) (8 * word))) ∧
    (s.present c.val = true → m.drip.st = .on → s.dead = false → exec (.scrubOverdue c vxe n) s = .next (s.coreRecord c.val 0 0x11 0 (if vxe then 2 else 1) n)) ∧
    (m.drip.st ≠ .on → exec (.scrubOverdue c vxe n) s = .next s) ∧
    exec (.linkMargin k lane false n) s = .next s ∧ (quiet 2 → exec (.linkMargin k lane true n) s = .next s) ∧
    (runs 2 → exec (.linkMargin k lane true n) s = exec (.laneSpareDetect k lane ⟨n, true⟩) s) ∧
    exec (.calibration n false) s = .next s ∧ (quiet 1 ∨ n ∈ m.sensorsOut → exec (.calibration n true) s = .next s) ∧
    (runs 1 → n ∉ m.sensorsOut → exec (.calibration n true) s = .next (({ s with mc := { m with sensorsOut := m.sensorsOut ++ [n] } } : State).mcRecord 0x18 0 0 n))

/-- R19, R431, R585, R615, R654, R655, Tables 18-3, 18-4, 21-6 and 23-1: a write of a power limit within its range sets it and reads back, one outside sets WERR and nothing else; BRG.ACCEPT is the host's alone; CHIP.ID is written until it is locked; JOB.EXIT, MSIX_RAISE, TEL.CFG and the doorbells have the effect of their own commands; what no table names ignores its write; a mailbox request starts on GO; a core's register takes a kind-2 write as its own store does. -/
def Obligations.RegisterWrites : Prop :=
  ∀ (s : State) (v : Word) (c : CoreId) (o : Nat), let kind4 (x : Nat) : Word := mkSa s.chipId 4 x
    let host (x : Nat) : Word := mkSa 0 0 x
    s.chipId < 4096 → s.hif.dev ≠ 3 → s.mc.fatal = false → s.brg.phase ≠ 0 →
    (let x := (v.extractLsb' 0 10).toNat
     (250 ≤ x → x ≤ 600 → exec (.registerWrite (kind4 0x2008) v) s = .next { s with pwr := { s.pwr with cap := x } }) ∧
     (x < 250 ∨ 600 < x → exec (.registerWrite (kind4 0x2008) v) s = .next { s with pwr := { s.pwr with werr := true } })) ∧
    s.mgmtRead 0x2008 = BitVec.ofNat 64 s.pwr.cap ∧
    exec (.registerWrite (kind4 0x0008) v) s = .next s ∧
    exec (.registerWrite (host 0x1000008) v) s = exec (.brgAccept v) s ∧
    exec (.registerWrite (kind4 0x5008) v) s = exec (.jobExitWrite v) s ∧
    exec (.registerWrite (kind4 0x5010) v) s = exec (.msixRaise v) s ∧
    exec (.registerWrite (kind4 0x4000) v) s = exec (.tbRoleWrite v) s ∧
    exec (.registerWrite (kind4 0x4010) v) s = exec (.tbSteparmWrite v) s ∧
    exec (.registerWrite (host 0x80000) v) s = exec (.telEnable v) s ∧
    exec (.registerWrite (host 0x48) v) s = exec (.hostRingEnable 0 v) s ∧
    exec (.registerWrite (host (0x100000 + 8 * c.val)) v) s = exec (.doorbellWrite c v) s ∧
    (s.chipLock = true → exec (.registerWrite (kind4 0x5000) v) s = .next s) ∧
    (s.chipLock = false → exec (.registerWrite (kind4 0x5000) v) s = .next { s with chipId := (v.extractLsb' 0 12).toNat, chipLock := v.getLsbD 63 }) ∧
    exec (.registerWrite (kind4 0x6000) v) s = .next { s with pins := { s.pins with gpioOe := v.extractLsb' 8 8, gpioOut := v.extractLsb' 0 8 } } ∧
    (∀ x ∈ [0x0010, 0x1018, 0x3008 + 8, 0x5018, 0x6008, 0x7000, 0x30000, 0x200000 + 0x4000 * 96], exec (.registerWrite (kind4 x) v) s = .next s) ∧
    (s.mbx.busy = true → exec (.registerWrite (host 0x20000) v) s = .next s) ∧
    (s.mbx.busy = false → v.getLsbD 0 = true → exec (.registerWrite (host 0x20000) v) s = .next { s with mbx := { s.mbx with busy := true } }) ∧
    (s.sitePresent 2 = true → (s.stk 2).fsm.st = .off → v.getLsbD 63 = true → exec (.registerWrite (kind4 0x22000) v) s =
      .next (s.setStk 2 { s.stk 2 with fsm := { (s.stk 2).fsm with en := true, st := .starting }, hotref := v.getLsbD 1, patrol := v.getLsbD 0 })) ∧
    (o < 65536 → (s.coreAt c.val).held = true → exec (.registerWrite (saCore s.chipId 2 c.val o) v) s = .next s) ∧
    (o < 65536 → (s.coreAt c.val).held = false → exec (.registerWrite (saCore s.chipId 2 c.val o) v) s = .next (s.onCore c.val fun e k => ioWrite e k none o v))

/-! ## Records, and what every command keeps -/

/-- R636: a record identical in source, class, severity, LUNIT, PUNIT and KEY to the newest record of its source in the queue adds one to that record's REPEAT and takes no entry, even when the queue is full; every other one takes an entry while there is one. The queue holds 64 records, and REPEAT stops at its greatest value (R637, R638, Table 22-6). -/
def Obligations.RecordsCoalesce : Prop :=
  ∀ (s : State) (r : ErrRec) (a b : List Rec) (y : Rec), let x := mget {} s.errs r.queue
    let z := mget {} (s.record r).errs r.queue
    s.record r = { s with errs := (s.record r).errs } ∧
    (x.recs = a ++ y :: b → y.r.source = r.source → (∀ w ∈ b, w.r.source ≠ r.source) →
      (y.r.cls = r.cls → y.r.sev = r.sev → y.r.ukind = r.ukind → y.r.lunit = r.lunit → y.r.punit = r.punit → y.r.key = r.key →
        z.recs = a ++ { y with rep := min (2 ^ 32 - 1) (y.rep + 1) } :: b ∧ z.unrep = x.unrep) ∧
      (y.r.cls ≠ r.cls ∨ y.r.sev ≠ r.sev ∨ y.r.lunit ≠ r.lunit ∨ y.r.key ≠ r.key → x.recs.length < 64 →
        z.recs = x.recs ++ [{ tb := s.tb, r := r, chip := s.chipId }] ∧ z.unrep = x.unrep)) ∧
    ((∀ w ∈ x.recs, w.r.source ≠ r.source) → x.recs.length < 64 → z.recs = x.recs ++ [{ tb := s.tb, r := r, chip := s.chipId }] ∧ z.unrep = x.unrep) ∧
    ((∀ w ∈ x.recs, w.r.source ≠ r.source) → 64 ≤ x.recs.length → z.recs = x.recs ∧ z.unrep = x.unrep + 1)

/-- No command stops the block: in every state, each of them answers a next state (the spec describes every error as an entry, a record, a status or a refused write). -/
def Obligations.EveryCommandAnswers : Prop := ∀ (i : Instr) (s : State), ∃ s', exec i s = .next s'

/-- R12, R15, R401: a word that a thread executes changes its own core alone; no other core, no memory stack, no region, router, cluster, fuse, power, security, host or job state changes but through the packets, flits, records and line events that it sends. -/
def Obligations.WordsStayInTheirCore : Prop :=
  ∀ (i : Instr) (c : CoreId) (t : Thr) (s s' : State), wordOf i = some (c, t) → exec i s = .next s' →
    s' = { s with cores := s'.cores, wires := s'.wires, svc := s'.svc, blx := s'.blx, lnk := s'.lnk, errs := s'.errs } ∧ ∀ l, l ≠ c.val → s'.coreAt l = s.coreAt l

/-- R91, R442: every step keeps every byte memory of the block, the scratchpads, tile and vector files, cell sets and operand caches, stacks and buffers, in its canonical form, so that equal contents are equal data. -/
def Obligations.MemoryForm : Prop := ∀ s s' : State, s.memWf = true → step s = .next s' → s'.memWf = true

/-- R588, R590, R591, R596, R603, R605: fuses only burn: no step lowers the life-cycle state, the security version or the count of claims, clears a slot that was enabled or revoked or the kill fuse, or changes a secret that has been burnt. -/
def Obligations.FusesOnlyBurn : Prop := ∀ s s' : State, step s = .next s' → s.fuses.grown s'.fuses = true

end
end

