-- ==== Sys2Proof/Laws/State.lean ====
section
/-! SUPPORT. One lemma per field per update of the records State, Core and Thread: what each update leaves unchanged, and what it sets. -/

namespace Sys2Proof.Machine

/-! ### State.setCore -/

@[simp] theorem State.setCore_pending (x : State) (n : Nat) (y : Core) : (x.setCore n y).pending = x.pending := rfl
@[simp] theorem State.setCore_tb (x : State) (n : Nat) (y : Core) : (x.setCore n y).tb = x.tb := rfl
@[simp] theorem State.setCore_chipId (x : State) (n : Nat) (y : Core) : (x.setCore n y).chipId = x.chipId := rfl
@[simp] theorem State.setCore_chipLock (x : State) (n : Nat) (y : Core) : (x.setCore n y).chipLock = x.chipLock := rfl
@[simp] theorem State.setCore_crt (x : State) (n : Nat) (y : Core) : (x.setCore n y).crt = x.crt := rfl
@[simp] theorem State.setCore_cls (x : State) (n : Nat) (y : Core) : (x.setCore n y).cls = x.cls := rfl
@[simp] theorem State.setCore_routers (x : State) (n : Nat) (y : Core) : (x.setCore n y).routers = x.routers := rfl
@[simp] theorem State.setCore_wires (x : State) (n : Nat) (y : Core) : (x.setCore n y).wires = x.wires := rfl
@[simp] theorem State.setCore_svc (x : State) (n : Nat) (y : Core) : (x.setCore n y).svc = x.svc := rfl
@[simp] theorem State.setCore_blx (x : State) (n : Nat) (y : Core) : (x.setCore n y).blx = x.blx := rfl
@[simp] theorem State.setCore_hbm (x : State) (n : Nat) (y : Core) : (x.setCore n y).hbm = x.hbm := rfl
@[simp] theorem State.setCore_regions (x : State) (n : Nat) (y : Core) : (x.setCore n y).regions = x.regions := rfl
@[simp] theorem State.setCore_lnk (x : State) (n : Nat) (y : Core) : (x.setCore n y).lnk = x.lnk := rfl
@[simp] theorem State.setCore_tbr (x : State) (n : Nat) (y : Core) : (x.setCore n y).tbr = x.tbr := rfl
@[simp] theorem State.setCore_hif (x : State) (n : Nat) (y : Core) : (x.setCore n y).hif = x.hif := rfl
@[simp] theorem State.setCore_job (x : State) (n : Nat) (y : Core) : (x.setCore n y).job = x.job := rfl
@[simp] theorem State.setCore_brg (x : State) (n : Nat) (y : Core) : (x.setCore n y).brg = x.brg := rfl
@[simp] theorem State.setCore_sec (x : State) (n : Nat) (y : Core) : (x.setCore n y).sec = x.sec := rfl
@[simp] theorem State.setCore_pwr (x : State) (n : Nat) (y : Core) : (x.setCore n y).pwr = x.pwr := rfl
@[simp] theorem State.setCore_errs (x : State) (n : Nat) (y : Core) : (x.setCore n y).errs = x.errs := rfl
@[simp] theorem State.setCore_mc (x : State) (n : Nat) (y : Core) : (x.setCore n y).mc = x.mc := rfl
@[simp] theorem State.setCore_mbx (x : State) (n : Nat) (y : Core) : (x.setCore n y).mbx = x.mbx := rfl
@[simp] theorem State.setCore_tel (x : State) (n : Nat) (y : Core) : (x.setCore n y).tel = x.tel := rfl
@[simp] theorem State.setCore_fuses (x : State) (n : Nat) (y : Core) : (x.setCore n y).fuses = x.fuses := rfl
@[simp] theorem State.setCore_nor (x : State) (n : Nat) (y : Core) : (x.setCore n y).nor = x.nor := rfl
@[simp] theorem State.setCore_pins (x : State) (n : Nat) (y : Core) : (x.setCore n y).pins = x.pins := rfl

/-! ### State.setCl -/

@[simp] theorem State.setCl_pending (x : State) (n : Nat) (y : EnFsm) : (x.setCl n y).pending = x.pending := rfl
@[simp] theorem State.setCl_tb (x : State) (n : Nat) (y : EnFsm) : (x.setCl n y).tb = x.tb := rfl
@[simp] theorem State.setCl_chipId (x : State) (n : Nat) (y : EnFsm) : (x.setCl n y).chipId = x.chipId := rfl
@[simp] theorem State.setCl_chipLock (x : State) (n : Nat) (y : EnFsm) : (x.setCl n y).chipLock = x.chipLock := rfl
@[simp] theorem State.setCl_crt (x : State) (n : Nat) (y : EnFsm) : (x.setCl n y).crt = x.crt := rfl
@[simp] theorem State.setCl_cores (x : State) (n : Nat) (y : EnFsm) : (x.setCl n y).cores = x.cores := rfl
@[simp] theorem State.setCl_routers (x : State) (n : Nat) (y : EnFsm) : (x.setCl n y).routers = x.routers := rfl
@[simp] theorem State.setCl_wires (x : State) (n : Nat) (y : EnFsm) : (x.setCl n y).wires = x.wires := rfl
@[simp] theorem State.setCl_svc (x : State) (n : Nat) (y : EnFsm) : (x.setCl n y).svc = x.svc := rfl
@[simp] theorem State.setCl_blx (x : State) (n : Nat) (y : EnFsm) : (x.setCl n y).blx = x.blx := rfl
@[simp] theorem State.setCl_hbm (x : State) (n : Nat) (y : EnFsm) : (x.setCl n y).hbm = x.hbm := rfl
@[simp] theorem State.setCl_regions (x : State) (n : Nat) (y : EnFsm) : (x.setCl n y).regions = x.regions := rfl
@[simp] theorem State.setCl_lnk (x : State) (n : Nat) (y : EnFsm) : (x.setCl n y).lnk = x.lnk := rfl
@[simp] theorem State.setCl_tbr (x : State) (n : Nat) (y : EnFsm) : (x.setCl n y).tbr = x.tbr := rfl
@[simp] theorem State.setCl_hif (x : State) (n : Nat) (y : EnFsm) : (x.setCl n y).hif = x.hif := rfl
@[simp] theorem State.setCl_job (x : State) (n : Nat) (y : EnFsm) : (x.setCl n y).job = x.job := rfl
@[simp] theorem State.setCl_brg (x : State) (n : Nat) (y : EnFsm) : (x.setCl n y).brg = x.brg := rfl
@[simp] theorem State.setCl_sec (x : State) (n : Nat) (y : EnFsm) : (x.setCl n y).sec = x.sec := rfl
@[simp] theorem State.setCl_pwr (x : State) (n : Nat) (y : EnFsm) : (x.setCl n y).pwr = x.pwr := rfl
@[simp] theorem State.setCl_errs (x : State) (n : Nat) (y : EnFsm) : (x.setCl n y).errs = x.errs := rfl
@[simp] theorem State.setCl_mc (x : State) (n : Nat) (y : EnFsm) : (x.setCl n y).mc = x.mc := rfl
@[simp] theorem State.setCl_mbx (x : State) (n : Nat) (y : EnFsm) : (x.setCl n y).mbx = x.mbx := rfl
@[simp] theorem State.setCl_tel (x : State) (n : Nat) (y : EnFsm) : (x.setCl n y).tel = x.tel := rfl
@[simp] theorem State.setCl_fuses (x : State) (n : Nat) (y : EnFsm) : (x.setCl n y).fuses = x.fuses := rfl
@[simp] theorem State.setCl_nor (x : State) (n : Nat) (y : EnFsm) : (x.setCl n y).nor = x.nor := rfl
@[simp] theorem State.setCl_pins (x : State) (n : Nat) (y : EnFsm) : (x.setCl n y).pins = x.pins := rfl

/-! ### State.setRouter -/

@[simp] theorem State.setRouter_pending (x : State) (n : Nat) (y : Router) : (x.setRouter n y).pending = x.pending := rfl
@[simp] theorem State.setRouter_tb (x : State) (n : Nat) (y : Router) : (x.setRouter n y).tb = x.tb := rfl
@[simp] theorem State.setRouter_chipId (x : State) (n : Nat) (y : Router) : (x.setRouter n y).chipId = x.chipId := rfl
@[simp] theorem State.setRouter_chipLock (x : State) (n : Nat) (y : Router) : (x.setRouter n y).chipLock = x.chipLock := rfl
@[simp] theorem State.setRouter_crt (x : State) (n : Nat) (y : Router) : (x.setRouter n y).crt = x.crt := rfl
@[simp] theorem State.setRouter_cores (x : State) (n : Nat) (y : Router) : (x.setRouter n y).cores = x.cores := rfl
@[simp] theorem State.setRouter_cls (x : State) (n : Nat) (y : Router) : (x.setRouter n y).cls = x.cls := rfl
@[simp] theorem State.setRouter_wires (x : State) (n : Nat) (y : Router) : (x.setRouter n y).wires = x.wires := rfl
@[simp] theorem State.setRouter_svc (x : State) (n : Nat) (y : Router) : (x.setRouter n y).svc = x.svc := rfl
@[simp] theorem State.setRouter_blx (x : State) (n : Nat) (y : Router) : (x.setRouter n y).blx = x.blx := rfl
@[simp] theorem State.setRouter_hbm (x : State) (n : Nat) (y : Router) : (x.setRouter n y).hbm = x.hbm := rfl
@[simp] theorem State.setRouter_regions (x : State) (n : Nat) (y : Router) : (x.setRouter n y).regions = x.regions := rfl
@[simp] theorem State.setRouter_lnk (x : State) (n : Nat) (y : Router) : (x.setRouter n y).lnk = x.lnk := rfl
@[simp] theorem State.setRouter_tbr (x : State) (n : Nat) (y : Router) : (x.setRouter n y).tbr = x.tbr := rfl
@[simp] theorem State.setRouter_hif (x : State) (n : Nat) (y : Router) : (x.setRouter n y).hif = x.hif := rfl
@[simp] theorem State.setRouter_job (x : State) (n : Nat) (y : Router) : (x.setRouter n y).job = x.job := rfl
@[simp] theorem State.setRouter_brg (x : State) (n : Nat) (y : Router) : (x.setRouter n y).brg = x.brg := rfl
@[simp] theorem State.setRouter_sec (x : State) (n : Nat) (y : Router) : (x.setRouter n y).sec = x.sec := rfl
@[simp] theorem State.setRouter_pwr (x : State) (n : Nat) (y : Router) : (x.setRouter n y).pwr = x.pwr := rfl
@[simp] theorem State.setRouter_errs (x : State) (n : Nat) (y : Router) : (x.setRouter n y).errs = x.errs := rfl
@[simp] theorem State.setRouter_mc (x : State) (n : Nat) (y : Router) : (x.setRouter n y).mc = x.mc := rfl
@[simp] theorem State.setRouter_mbx (x : State) (n : Nat) (y : Router) : (x.setRouter n y).mbx = x.mbx := rfl
@[simp] theorem State.setRouter_tel (x : State) (n : Nat) (y : Router) : (x.setRouter n y).tel = x.tel := rfl
@[simp] theorem State.setRouter_fuses (x : State) (n : Nat) (y : Router) : (x.setRouter n y).fuses = x.fuses := rfl
@[simp] theorem State.setRouter_nor (x : State) (n : Nat) (y : Router) : (x.setRouter n y).nor = x.nor := rfl
@[simp] theorem State.setRouter_pins (x : State) (n : Nat) (y : Router) : (x.setRouter n y).pins = x.pins := rfl

/-! ### State.setLine -/

@[simp] theorem State.setLine_pending (x : State) (n : Nat) (y : Blx) : (x.setLine n y).pending = x.pending := rfl
@[simp] theorem State.setLine_tb (x : State) (n : Nat) (y : Blx) : (x.setLine n y).tb = x.tb := rfl
@[simp] theorem State.setLine_chipId (x : State) (n : Nat) (y : Blx) : (x.setLine n y).chipId = x.chipId := rfl
@[simp] theorem State.setLine_chipLock (x : State) (n : Nat) (y : Blx) : (x.setLine n y).chipLock = x.chipLock := rfl
@[simp] theorem State.setLine_crt (x : State) (n : Nat) (y : Blx) : (x.setLine n y).crt = x.crt := rfl
@[simp] theorem State.setLine_cores (x : State) (n : Nat) (y : Blx) : (x.setLine n y).cores = x.cores := rfl
@[simp] theorem State.setLine_cls (x : State) (n : Nat) (y : Blx) : (x.setLine n y).cls = x.cls := rfl
@[simp] theorem State.setLine_routers (x : State) (n : Nat) (y : Blx) : (x.setLine n y).routers = x.routers := rfl
@[simp] theorem State.setLine_wires (x : State) (n : Nat) (y : Blx) : (x.setLine n y).wires = x.wires := rfl
@[simp] theorem State.setLine_svc (x : State) (n : Nat) (y : Blx) : (x.setLine n y).svc = x.svc := rfl
@[simp] theorem State.setLine_hbm (x : State) (n : Nat) (y : Blx) : (x.setLine n y).hbm = x.hbm := rfl
@[simp] theorem State.setLine_regions (x : State) (n : Nat) (y : Blx) : (x.setLine n y).regions = x.regions := rfl
@[simp] theorem State.setLine_lnk (x : State) (n : Nat) (y : Blx) : (x.setLine n y).lnk = x.lnk := rfl
@[simp] theorem State.setLine_tbr (x : State) (n : Nat) (y : Blx) : (x.setLine n y).tbr = x.tbr := rfl
@[simp] theorem State.setLine_hif (x : State) (n : Nat) (y : Blx) : (x.setLine n y).hif = x.hif := rfl
@[simp] theorem State.setLine_job (x : State) (n : Nat) (y : Blx) : (x.setLine n y).job = x.job := rfl
@[simp] theorem State.setLine_brg (x : State) (n : Nat) (y : Blx) : (x.setLine n y).brg = x.brg := rfl
@[simp] theorem State.setLine_sec (x : State) (n : Nat) (y : Blx) : (x.setLine n y).sec = x.sec := rfl
@[simp] theorem State.setLine_pwr (x : State) (n : Nat) (y : Blx) : (x.setLine n y).pwr = x.pwr := rfl
@[simp] theorem State.setLine_errs (x : State) (n : Nat) (y : Blx) : (x.setLine n y).errs = x.errs := rfl
@[simp] theorem State.setLine_mc (x : State) (n : Nat) (y : Blx) : (x.setLine n y).mc = x.mc := rfl
@[simp] theorem State.setLine_mbx (x : State) (n : Nat) (y : Blx) : (x.setLine n y).mbx = x.mbx := rfl
@[simp] theorem State.setLine_tel (x : State) (n : Nat) (y : Blx) : (x.setLine n y).tel = x.tel := rfl
@[simp] theorem State.setLine_fuses (x : State) (n : Nat) (y : Blx) : (x.setLine n y).fuses = x.fuses := rfl
@[simp] theorem State.setLine_nor (x : State) (n : Nat) (y : Blx) : (x.setLine n y).nor = x.nor := rfl
@[simp] theorem State.setLine_pins (x : State) (n : Nat) (y : Blx) : (x.setLine n y).pins = x.pins := rfl

/-! ### State.setStk -/

@[simp] theorem State.setStk_pending (x : State) (n : Nat) (y : Hbm) : (x.setStk n y).pending = x.pending := rfl
@[simp] theorem State.setStk_tb (x : State) (n : Nat) (y : Hbm) : (x.setStk n y).tb = x.tb := rfl
@[simp] theorem State.setStk_chipId (x : State) (n : Nat) (y : Hbm) : (x.setStk n y).chipId = x.chipId := rfl
@[simp] theorem State.setStk_chipLock (x : State) (n : Nat) (y : Hbm) : (x.setStk n y).chipLock = x.chipLock := rfl
@[simp] theorem State.setStk_crt (x : State) (n : Nat) (y : Hbm) : (x.setStk n y).crt = x.crt := rfl
@[simp] theorem State.setStk_cores (x : State) (n : Nat) (y : Hbm) : (x.setStk n y).cores = x.cores := rfl
@[simp] theorem State.setStk_cls (x : State) (n : Nat) (y : Hbm) : (x.setStk n y).cls = x.cls := rfl
@[simp] theorem State.setStk_routers (x : State) (n : Nat) (y : Hbm) : (x.setStk n y).routers = x.routers := rfl
@[simp] theorem State.setStk_wires (x : State) (n : Nat) (y : Hbm) : (x.setStk n y).wires = x.wires := rfl
@[simp] theorem State.setStk_svc (x : State) (n : Nat) (y : Hbm) : (x.setStk n y).svc = x.svc := rfl
@[simp] theorem State.setStk_blx (x : State) (n : Nat) (y : Hbm) : (x.setStk n y).blx = x.blx := rfl
@[simp] theorem State.setStk_regions (x : State) (n : Nat) (y : Hbm) : (x.setStk n y).regions = x.regions := rfl
@[simp] theorem State.setStk_lnk (x : State) (n : Nat) (y : Hbm) : (x.setStk n y).lnk = x.lnk := rfl
@[simp] theorem State.setStk_tbr (x : State) (n : Nat) (y : Hbm) : (x.setStk n y).tbr = x.tbr := rfl
@[simp] theorem State.setStk_hif (x : State) (n : Nat) (y : Hbm) : (x.setStk n y).hif = x.hif := rfl
@[simp] theorem State.setStk_job (x : State) (n : Nat) (y : Hbm) : (x.setStk n y).job = x.job := rfl
@[simp] theorem State.setStk_brg (x : State) (n : Nat) (y : Hbm) : (x.setStk n y).brg = x.brg := rfl
@[simp] theorem State.setStk_sec (x : State) (n : Nat) (y : Hbm) : (x.setStk n y).sec = x.sec := rfl
@[simp] theorem State.setStk_pwr (x : State) (n : Nat) (y : Hbm) : (x.setStk n y).pwr = x.pwr := rfl
@[simp] theorem State.setStk_errs (x : State) (n : Nat) (y : Hbm) : (x.setStk n y).errs = x.errs := rfl
@[simp] theorem State.setStk_mc (x : State) (n : Nat) (y : Hbm) : (x.setStk n y).mc = x.mc := rfl
@[simp] theorem State.setStk_mbx (x : State) (n : Nat) (y : Hbm) : (x.setStk n y).mbx = x.mbx := rfl
@[simp] theorem State.setStk_tel (x : State) (n : Nat) (y : Hbm) : (x.setStk n y).tel = x.tel := rfl
@[simp] theorem State.setStk_fuses (x : State) (n : Nat) (y : Hbm) : (x.setStk n y).fuses = x.fuses := rfl
@[simp] theorem State.setStk_nor (x : State) (n : Nat) (y : Hbm) : (x.setStk n y).nor = x.nor := rfl
@[simp] theorem State.setStk_pins (x : State) (n : Nat) (y : Hbm) : (x.setStk n y).pins = x.pins := rfl

/-! ### State.setRegion -/

@[simp] theorem State.setRegion_pending (x : State) (n : Nat) (y : Region) : (x.setRegion n y).pending = x.pending := rfl
@[simp] theorem State.setRegion_tb (x : State) (n : Nat) (y : Region) : (x.setRegion n y).tb = x.tb := rfl
@[simp] theorem State.setRegion_chipId (x : State) (n : Nat) (y : Region) : (x.setRegion n y).chipId = x.chipId := rfl
@[simp] theorem State.setRegion_chipLock (x : State) (n : Nat) (y : Region) : (x.setRegion n y).chipLock = x.chipLock := rfl
@[simp] theorem State.setRegion_crt (x : State) (n : Nat) (y : Region) : (x.setRegion n y).crt = x.crt := rfl
@[simp] theorem State.setRegion_cores (x : State) (n : Nat) (y : Region) : (x.setRegion n y).cores = x.cores := rfl
@[simp] theorem State.setRegion_cls (x : State) (n : Nat) (y : Region) : (x.setRegion n y).cls = x.cls := rfl
@[simp] theorem State.setRegion_routers (x : State) (n : Nat) (y : Region) : (x.setRegion n y).routers = x.routers := rfl
@[simp] theorem State.setRegion_wires (x : State) (n : Nat) (y : Region) : (x.setRegion n y).wires = x.wires := rfl
@[simp] theorem State.setRegion_svc (x : State) (n : Nat) (y : Region) : (x.setRegion n y).svc = x.svc := rfl
@[simp] theorem State.setRegion_blx (x : State) (n : Nat) (y : Region) : (x.setRegion n y).blx = x.blx := rfl
@[simp] theorem State.setRegion_hbm (x : State) (n : Nat) (y : Region) : (x.setRegion n y).hbm = x.hbm := rfl
@[simp] theorem State.setRegion_lnk (x : State) (n : Nat) (y : Region) : (x.setRegion n y).lnk = x.lnk := rfl
@[simp] theorem State.setRegion_tbr (x : State) (n : Nat) (y : Region) : (x.setRegion n y).tbr = x.tbr := rfl
@[simp] theorem State.setRegion_hif (x : State) (n : Nat) (y : Region) : (x.setRegion n y).hif = x.hif := rfl
@[simp] theorem State.setRegion_job (x : State) (n : Nat) (y : Region) : (x.setRegion n y).job = x.job := rfl
@[simp] theorem State.setRegion_brg (x : State) (n : Nat) (y : Region) : (x.setRegion n y).brg = x.brg := rfl
@[simp] theorem State.setRegion_sec (x : State) (n : Nat) (y : Region) : (x.setRegion n y).sec = x.sec := rfl
@[simp] theorem State.setRegion_pwr (x : State) (n : Nat) (y : Region) : (x.setRegion n y).pwr = x.pwr := rfl
@[simp] theorem State.setRegion_errs (x : State) (n : Nat) (y : Region) : (x.setRegion n y).errs = x.errs := rfl
@[simp] theorem State.setRegion_mc (x : State) (n : Nat) (y : Region) : (x.setRegion n y).mc = x.mc := rfl
@[simp] theorem State.setRegion_mbx (x : State) (n : Nat) (y : Region) : (x.setRegion n y).mbx = x.mbx := rfl
@[simp] theorem State.setRegion_tel (x : State) (n : Nat) (y : Region) : (x.setRegion n y).tel = x.tel := rfl
@[simp] theorem State.setRegion_fuses (x : State) (n : Nat) (y : Region) : (x.setRegion n y).fuses = x.fuses := rfl
@[simp] theorem State.setRegion_nor (x : State) (n : Nat) (y : Region) : (x.setRegion n y).nor = x.nor := rfl
@[simp] theorem State.setRegion_pins (x : State) (n : Nat) (y : Region) : (x.setRegion n y).pins = x.pins := rfl

/-! ### State.setPort -/

@[simp] theorem State.setPort_pending (x : State) (n : Nat) (y : Lnk) : (x.setPort n y).pending = x.pending := rfl
@[simp] theorem State.setPort_tb (x : State) (n : Nat) (y : Lnk) : (x.setPort n y).tb = x.tb := rfl
@[simp] theorem State.setPort_chipId (x : State) (n : Nat) (y : Lnk) : (x.setPort n y).chipId = x.chipId := rfl
@[simp] theorem State.setPort_chipLock (x : State) (n : Nat) (y : Lnk) : (x.setPort n y).chipLock = x.chipLock := rfl
@[simp] theorem State.setPort_crt (x : State) (n : Nat) (y : Lnk) : (x.setPort n y).crt = x.crt := rfl
@[simp] theorem State.setPort_cores (x : State) (n : Nat) (y : Lnk) : (x.setPort n y).cores = x.cores := rfl
@[simp] theorem State.setPort_cls (x : State) (n : Nat) (y : Lnk) : (x.setPort n y).cls = x.cls := rfl
@[simp] theorem State.setPort_routers (x : State) (n : Nat) (y : Lnk) : (x.setPort n y).routers = x.routers := rfl
@[simp] theorem State.setPort_wires (x : State) (n : Nat) (y : Lnk) : (x.setPort n y).wires = x.wires := rfl
@[simp] theorem State.setPort_svc (x : State) (n : Nat) (y : Lnk) : (x.setPort n y).svc = x.svc := rfl
@[simp] theorem State.setPort_blx (x : State) (n : Nat) (y : Lnk) : (x.setPort n y).blx = x.blx := rfl
@[simp] theorem State.setPort_hbm (x : State) (n : Nat) (y : Lnk) : (x.setPort n y).hbm = x.hbm := rfl
@[simp] theorem State.setPort_regions (x : State) (n : Nat) (y : Lnk) : (x.setPort n y).regions = x.regions := rfl
@[simp] theorem State.setPort_tbr (x : State) (n : Nat) (y : Lnk) : (x.setPort n y).tbr = x.tbr := rfl
@[simp] theorem State.setPort_hif (x : State) (n : Nat) (y : Lnk) : (x.setPort n y).hif = x.hif := rfl
@[simp] theorem State.setPort_job (x : State) (n : Nat) (y : Lnk) : (x.setPort n y).job = x.job := rfl
@[simp] theorem State.setPort_brg (x : State) (n : Nat) (y : Lnk) : (x.setPort n y).brg = x.brg := rfl
@[simp] theorem State.setPort_sec (x : State) (n : Nat) (y : Lnk) : (x.setPort n y).sec = x.sec := rfl
@[simp] theorem State.setPort_pwr (x : State) (n : Nat) (y : Lnk) : (x.setPort n y).pwr = x.pwr := rfl
@[simp] theorem State.setPort_errs (x : State) (n : Nat) (y : Lnk) : (x.setPort n y).errs = x.errs := rfl
@[simp] theorem State.setPort_mc (x : State) (n : Nat) (y : Lnk) : (x.setPort n y).mc = x.mc := rfl
@[simp] theorem State.setPort_mbx (x : State) (n : Nat) (y : Lnk) : (x.setPort n y).mbx = x.mbx := rfl
@[simp] theorem State.setPort_tel (x : State) (n : Nat) (y : Lnk) : (x.setPort n y).tel = x.tel := rfl
@[simp] theorem State.setPort_fuses (x : State) (n : Nat) (y : Lnk) : (x.setPort n y).fuses = x.fuses := rfl
@[simp] theorem State.setPort_nor (x : State) (n : Nat) (y : Lnk) : (x.setPort n y).nor = x.nor := rfl
@[simp] theorem State.setPort_pins (x : State) (n : Nat) (y : Lnk) : (x.setPort n y).pins = x.pins := rfl

/-! ### State.setWire -/

@[simp] theorem State.setWire_pending (x : State) (n p : Nat) (y : List Flit) : (x.setWire n p y).pending = x.pending := rfl
@[simp] theorem State.setWire_tb (x : State) (n p : Nat) (y : List Flit) : (x.setWire n p y).tb = x.tb := rfl
@[simp] theorem State.setWire_chipId (x : State) (n p : Nat) (y : List Flit) : (x.setWire n p y).chipId = x.chipId := rfl
@[simp] theorem State.setWire_chipLock (x : State) (n p : Nat) (y : List Flit) : (x.setWire n p y).chipLock = x.chipLock := rfl
@[simp] theorem State.setWire_crt (x : State) (n p : Nat) (y : List Flit) : (x.setWire n p y).crt = x.crt := rfl
@[simp] theorem State.setWire_cores (x : State) (n p : Nat) (y : List Flit) : (x.setWire n p y).cores = x.cores := rfl
@[simp] theorem State.setWire_cls (x : State) (n p : Nat) (y : List Flit) : (x.setWire n p y).cls = x.cls := rfl
@[simp] theorem State.setWire_routers (x : State) (n p : Nat) (y : List Flit) : (x.setWire n p y).routers = x.routers := rfl
@[simp] theorem State.setWire_svc (x : State) (n p : Nat) (y : List Flit) : (x.setWire n p y).svc = x.svc := rfl
@[simp] theorem State.setWire_blx (x : State) (n p : Nat) (y : List Flit) : (x.setWire n p y).blx = x.blx := rfl
@[simp] theorem State.setWire_hbm (x : State) (n p : Nat) (y : List Flit) : (x.setWire n p y).hbm = x.hbm := rfl
@[simp] theorem State.setWire_regions (x : State) (n p : Nat) (y : List Flit) : (x.setWire n p y).regions = x.regions := rfl
@[simp] theorem State.setWire_lnk (x : State) (n p : Nat) (y : List Flit) : (x.setWire n p y).lnk = x.lnk := rfl
@[simp] theorem State.setWire_tbr (x : State) (n p : Nat) (y : List Flit) : (x.setWire n p y).tbr = x.tbr := rfl
@[simp] theorem State.setWire_hif (x : State) (n p : Nat) (y : List Flit) : (x.setWire n p y).hif = x.hif := rfl
@[simp] theorem State.setWire_job (x : State) (n p : Nat) (y : List Flit) : (x.setWire n p y).job = x.job := rfl
@[simp] theorem State.setWire_brg (x : State) (n p : Nat) (y : List Flit) : (x.setWire n p y).brg = x.brg := rfl
@[simp] theorem State.setWire_sec (x : State) (n p : Nat) (y : List Flit) : (x.setWire n p y).sec = x.sec := rfl
@[simp] theorem State.setWire_pwr (x : State) (n p : Nat) (y : List Flit) : (x.setWire n p y).pwr = x.pwr := rfl
@[simp] theorem State.setWire_errs (x : State) (n p : Nat) (y : List Flit) : (x.setWire n p y).errs = x.errs := rfl
@[simp] theorem State.setWire_mc (x : State) (n p : Nat) (y : List Flit) : (x.setWire n p y).mc = x.mc := rfl
@[simp] theorem State.setWire_mbx (x : State) (n p : Nat) (y : List Flit) : (x.setWire n p y).mbx = x.mbx := rfl
@[simp] theorem State.setWire_tel (x : State) (n p : Nat) (y : List Flit) : (x.setWire n p y).tel = x.tel := rfl
@[simp] theorem State.setWire_fuses (x : State) (n p : Nat) (y : List Flit) : (x.setWire n p y).fuses = x.fuses := rfl
@[simp] theorem State.setWire_nor (x : State) (n p : Nat) (y : List Flit) : (x.setWire n p y).nor = x.nor := rfl
@[simp] theorem State.setWire_pins (x : State) (n p : Nat) (y : List Flit) : (x.setWire n p y).pins = x.pins := rfl

/-! ### Core.setThread -/

@[simp] theorem Core.setThread_held (x : Core) (t : Nat) (y : Thread) : (x.setThread t y).held = x.held := rfl
@[simp] theorem Core.setThread_lock (x : Core) (t : Nat) (y : Thread) : (x.setThread t y).lock = x.lock := rfl
@[simp] theorem Core.setThread_park (x : Core) (t : Nat) (y : Thread) : (x.setThread t y).park = x.park := rfl
@[simp] theorem Core.setThread_dispen (x : Core) (t : Nat) (y : Thread) : (x.setThread t y).dispen = x.dispen := rfl
@[simp] theorem Core.setThread_debug (x : Core) (t : Nat) (y : Thread) : (x.setThread t y).debug = x.debug := rfl
@[simp] theorem Core.setThread_qown (x : Core) (t : Nat) (y : Thread) : (x.setThread t y).qown = x.qown := rfl
@[simp] theorem Core.setThread_steps (x : Core) (t : Nat) (y : Thread) : (x.setThread t y).steps = x.steps := rfl
@[simp] theorem Core.setThread_entEn (x : Core) (t : Nat) (y : Thread) : (x.setThread t y).entEn = x.entEn := rfl
@[simp] theorem Core.setThread_entMl (x : Core) (t : Nat) (y : Thread) : (x.setThread t y).entMl = x.entMl := rfl
@[simp] theorem Core.setThread_entAddr (x : Core) (t : Nat) (y : Thread) : (x.setThread t y).entAddr = x.entAddr := rfl
@[simp] theorem Core.setThread_exv (x : Core) (t : Nat) (y : Thread) : (x.setThread t y).exv = x.exv := rfl
@[simp] theorem Core.setThread_irqv (x : Core) (t : Nat) (y : Thread) : (x.setThread t y).irqv = x.irqv := rfl
@[simp] theorem Core.setThread_dfv (x : Core) (t : Nat) (y : Thread) : (x.setThread t y).dfv = x.dfv := rfl
@[simp] theorem Core.setThread_vecmode (x : Core) (t : Nat) (y : Thread) : (x.setThread t y).vecmode = x.vecmode := rfl
@[simp] theorem Core.setThread_nxmap (x : Core) (t : Nat) (y : Thread) : (x.setThread t y).nxmap = x.nxmap := rfl
@[simp] theorem Core.setThread_imem (x : Core) (t : Nat) (y : Thread) : (x.setThread t y).imem = x.imem := rfl
@[simp] theorem Core.setThread_imark (x : Core) (t : Nat) (y : Thread) : (x.setThread t y).imark = x.imark := rfl
@[simp] theorem Core.setThread_spad (x : Core) (t : Nat) (y : Thread) : (x.setThread t y).spad = x.spad := rfl
@[simp] theorem Core.setThread_rings (x : Core) (t : Nat) (y : Thread) : (x.setThread t y).rings = x.rings := rfl
@[simp] theorem Core.setThread_cho (x : Core) (t : Nat) (y : Thread) : (x.setThread t y).cho = x.cho := rfl
@[simp] theorem Core.setThread_chi (x : Core) (t : Nat) (y : Thread) : (x.setThread t y).chi = x.chi := rfl
@[simp] theorem Core.setThread_out (x : Core) (t : Nat) (y : Thread) : (x.setThread t y).out = x.out := rfl
@[simp] theorem Core.setThread_sc (x : Core) (t : Nat) (y : Thread) : (x.setThread t y).sc = x.sc := rfl
@[simp] theorem Core.setThread_scBrk (x : Core) (t : Nat) (y : Thread) : (x.setThread t y).scBrk = x.scBrk := rfl
@[simp] theorem Core.setThread_part (x : Core) (t : Nat) (y : Thread) : (x.setThread t y).part = x.part := rfl
@[simp] theorem Core.setThread_arrive (x : Core) (t : Nat) (y : Thread) : (x.setThread t y).arrive = x.arrive := rfl
@[simp] theorem Core.setThread_bgen (x : Core) (t : Nat) (y : Thread) : (x.setThread t y).bgen = x.bgen := rfl
@[simp] theorem Core.setThread_mxe (x : Core) (t : Nat) (y : Thread) : (x.setThread t y).mxe = x.mxe := rfl
@[simp] theorem Core.setThread_vxe (x : Core) (t : Nat) (y : Thread) : (x.setThread t y).vxe = x.vxe := rfl
@[simp] theorem Core.setThread_dma0 (x : Core) (t : Nat) (y : Thread) : (x.setThread t y).dma0 = x.dma0 := rfl
@[simp] theorem Core.setThread_dma1 (x : Core) (t : Nat) (y : Thread) : (x.setThread t y).dma1 = x.dma1 := rfl
@[simp] theorem Core.setThread_trk (x : Core) (t : Nat) (y : Thread) : (x.setThread t y).trk = x.trk := rfl
@[simp] theorem Core.setThread_pace (x : Core) (t : Nat) (y : Thread) : (x.setThread t y).pace = x.pace := rfl
@[simp] theorem Core.setThread_writes (x : Core) (t : Nat) (y : Thread) : (x.setThread t y).writes = x.writes := rfl
@[simp] theorem Core.setThread_xid (x : Core) (t : Nat) (y : Thread) : (x.setThread t y).xid = x.xid := rfl
@[simp] theorem Core.setThread_seq (x : Core) (t : Nat) (y : Thread) : (x.setThread t y).seq = x.seq := rfl

/-! ### Core.updThread -/

@[simp] theorem Core.updThread_held (x : Core) (t : Nat) (f : Thread → Thread) : (x.updThread t f).held = x.held := rfl
@[simp] theorem Core.updThread_lock (x : Core) (t : Nat) (f : Thread → Thread) : (x.updThread t f).lock = x.lock := rfl
@[simp] theorem Core.updThread_park (x : Core) (t : Nat) (f : Thread → Thread) : (x.updThread t f).park = x.park := rfl
@[simp] theorem Core.updThread_dispen (x : Core) (t : Nat) (f : Thread → Thread) : (x.updThread t f).dispen = x.dispen := rfl
@[simp] theorem Core.updThread_debug (x : Core) (t : Nat) (f : Thread → Thread) : (x.updThread t f).debug = x.debug := rfl
@[simp] theorem Core.updThread_qown (x : Core) (t : Nat) (f : Thread → Thread) : (x.updThread t f).qown = x.qown := rfl
@[simp] theorem Core.updThread_steps (x : Core) (t : Nat) (f : Thread → Thread) : (x.updThread t f).steps = x.steps := rfl
@[simp] theorem Core.updThread_entEn (x : Core) (t : Nat) (f : Thread → Thread) : (x.updThread t f).entEn = x.entEn := rfl
@[simp] theorem Core.updThread_entMl (x : Core) (t : Nat) (f : Thread → Thread) : (x.updThread t f).entMl = x.entMl := rfl
@[simp] theorem Core.updThread_entAddr (x : Core) (t : Nat) (f : Thread → Thread) : (x.updThread t f).entAddr = x.entAddr := rfl
@[simp] theorem Core.updThread_exv (x : Core) (t : Nat) (f : Thread → Thread) : (x.updThread t f).exv = x.exv := rfl
@[simp] theorem Core.updThread_irqv (x : Core) (t : Nat) (f : Thread → Thread) : (x.updThread t f).irqv = x.irqv := rfl
@[simp] theorem Core.updThread_dfv (x : Core) (t : Nat) (f : Thread → Thread) : (x.updThread t f).dfv = x.dfv := rfl
@[simp] theorem Core.updThread_vecmode (x : Core) (t : Nat) (f : Thread → Thread) : (x.updThread t f).vecmode = x.vecmode := rfl
@[simp] theorem Core.updThread_nxmap (x : Core) (t : Nat) (f : Thread → Thread) : (x.updThread t f).nxmap = x.nxmap := rfl
@[simp] theorem Core.updThread_imem (x : Core) (t : Nat) (f : Thread → Thread) : (x.updThread t f).imem = x.imem := rfl
@[simp] theorem Core.updThread_imark (x : Core) (t : Nat) (f : Thread → Thread) : (x.updThread t f).imark = x.imark := rfl
@[simp] theorem Core.updThread_spad (x : Core) (t : Nat) (f : Thread → Thread) : (x.updThread t f).spad = x.spad := rfl
@[simp] theorem Core.updThread_rings (x : Core) (t : Nat) (f : Thread → Thread) : (x.updThread t f).rings = x.rings := rfl
@[simp] theorem Core.updThread_cho (x : Core) (t : Nat) (f : Thread → Thread) : (x.updThread t f).cho = x.cho := rfl
@[simp] theorem Core.updThread_chi (x : Core) (t : Nat) (f : Thread → Thread) : (x.updThread t f).chi = x.chi := rfl
@[simp] theorem Core.updThread_out (x : Core) (t : Nat) (f : Thread → Thread) : (x.updThread t f).out = x.out := rfl
@[simp] theorem Core.updThread_sc (x : Core) (t : Nat) (f : Thread → Thread) : (x.updThread t f).sc = x.sc := rfl
@[simp] theorem Core.updThread_scBrk (x : Core) (t : Nat) (f : Thread → Thread) : (x.updThread t f).scBrk = x.scBrk := rfl
@[simp] theorem Core.updThread_part (x : Core) (t : Nat) (f : Thread → Thread) : (x.updThread t f).part = x.part := rfl
@[simp] theorem Core.updThread_arrive (x : Core) (t : Nat) (f : Thread → Thread) : (x.updThread t f).arrive = x.arrive := rfl
@[simp] theorem Core.updThread_bgen (x : Core) (t : Nat) (f : Thread → Thread) : (x.updThread t f).bgen = x.bgen := rfl
@[simp] theorem Core.updThread_mxe (x : Core) (t : Nat) (f : Thread → Thread) : (x.updThread t f).mxe = x.mxe := rfl
@[simp] theorem Core.updThread_vxe (x : Core) (t : Nat) (f : Thread → Thread) : (x.updThread t f).vxe = x.vxe := rfl
@[simp] theorem Core.updThread_dma0 (x : Core) (t : Nat) (f : Thread → Thread) : (x.updThread t f).dma0 = x.dma0 := rfl
@[simp] theorem Core.updThread_dma1 (x : Core) (t : Nat) (f : Thread → Thread) : (x.updThread t f).dma1 = x.dma1 := rfl
@[simp] theorem Core.updThread_trk (x : Core) (t : Nat) (f : Thread → Thread) : (x.updThread t f).trk = x.trk := rfl
@[simp] theorem Core.updThread_pace (x : Core) (t : Nat) (f : Thread → Thread) : (x.updThread t f).pace = x.pace := rfl
@[simp] theorem Core.updThread_writes (x : Core) (t : Nat) (f : Thread → Thread) : (x.updThread t f).writes = x.writes := rfl
@[simp] theorem Core.updThread_xid (x : Core) (t : Nat) (f : Thread → Thread) : (x.updThread t f).xid = x.xid := rfl
@[simp] theorem Core.updThread_seq (x : Core) (t : Nat) (f : Thread → Thread) : (x.updThread t f).seq = x.seq := rfl

/-! ### Core.setReg -/

@[simp] theorem Core.setReg_held (x : Core) (t r : Nat) (w : TWord) : (x.setReg t r w).held = x.held := rfl
@[simp] theorem Core.setReg_lock (x : Core) (t r : Nat) (w : TWord) : (x.setReg t r w).lock = x.lock := rfl
@[simp] theorem Core.setReg_park (x : Core) (t r : Nat) (w : TWord) : (x.setReg t r w).park = x.park := rfl
@[simp] theorem Core.setReg_dispen (x : Core) (t r : Nat) (w : TWord) : (x.setReg t r w).dispen = x.dispen := rfl
@[simp] theorem Core.setReg_debug (x : Core) (t r : Nat) (w : TWord) : (x.setReg t r w).debug = x.debug := rfl
@[simp] theorem Core.setReg_qown (x : Core) (t r : Nat) (w : TWord) : (x.setReg t r w).qown = x.qown := rfl
@[simp] theorem Core.setReg_steps (x : Core) (t r : Nat) (w : TWord) : (x.setReg t r w).steps = x.steps := rfl
@[simp] theorem Core.setReg_entEn (x : Core) (t r : Nat) (w : TWord) : (x.setReg t r w).entEn = x.entEn := rfl
@[simp] theorem Core.setReg_entMl (x : Core) (t r : Nat) (w : TWord) : (x.setReg t r w).entMl = x.entMl := rfl
@[simp] theorem Core.setReg_entAddr (x : Core) (t r : Nat) (w : TWord) : (x.setReg t r w).entAddr = x.entAddr := rfl
@[simp] theorem Core.setReg_exv (x : Core) (t r : Nat) (w : TWord) : (x.setReg t r w).exv = x.exv := rfl
@[simp] theorem Core.setReg_irqv (x : Core) (t r : Nat) (w : TWord) : (x.setReg t r w).irqv = x.irqv := rfl
@[simp] theorem Core.setReg_dfv (x : Core) (t r : Nat) (w : TWord) : (x.setReg t r w).dfv = x.dfv := rfl
@[simp] theorem Core.setReg_vecmode (x : Core) (t r : Nat) (w : TWord) : (x.setReg t r w).vecmode = x.vecmode := rfl
@[simp] theorem Core.setReg_nxmap (x : Core) (t r : Nat) (w : TWord) : (x.setReg t r w).nxmap = x.nxmap := rfl
@[simp] theorem Core.setReg_imem (x : Core) (t r : Nat) (w : TWord) : (x.setReg t r w).imem = x.imem := rfl
@[simp] theorem Core.setReg_imark (x : Core) (t r : Nat) (w : TWord) : (x.setReg t r w).imark = x.imark := rfl
@[simp] theorem Core.setReg_spad (x : Core) (t r : Nat) (w : TWord) : (x.setReg t r w).spad = x.spad := rfl
@[simp] theorem Core.setReg_rings (x : Core) (t r : Nat) (w : TWord) : (x.setReg t r w).rings = x.rings := rfl
@[simp] theorem Core.setReg_cho (x : Core) (t r : Nat) (w : TWord) : (x.setReg t r w).cho = x.cho := rfl
@[simp] theorem Core.setReg_chi (x : Core) (t r : Nat) (w : TWord) : (x.setReg t r w).chi = x.chi := rfl
@[simp] theorem Core.setReg_out (x : Core) (t r : Nat) (w : TWord) : (x.setReg t r w).out = x.out := rfl
@[simp] theorem Core.setReg_sc (x : Core) (t r : Nat) (w : TWord) : (x.setReg t r w).sc = x.sc := rfl
@[simp] theorem Core.setReg_scBrk (x : Core) (t r : Nat) (w : TWord) : (x.setReg t r w).scBrk = x.scBrk := rfl
@[simp] theorem Core.setReg_part (x : Core) (t r : Nat) (w : TWord) : (x.setReg t r w).part = x.part := rfl
@[simp] theorem Core.setReg_arrive (x : Core) (t r : Nat) (w : TWord) : (x.setReg t r w).arrive = x.arrive := rfl
@[simp] theorem Core.setReg_bgen (x : Core) (t r : Nat) (w : TWord) : (x.setReg t r w).bgen = x.bgen := rfl
@[simp] theorem Core.setReg_mxe (x : Core) (t r : Nat) (w : TWord) : (x.setReg t r w).mxe = x.mxe := rfl
@[simp] theorem Core.setReg_vxe (x : Core) (t r : Nat) (w : TWord) : (x.setReg t r w).vxe = x.vxe := rfl
@[simp] theorem Core.setReg_dma0 (x : Core) (t r : Nat) (w : TWord) : (x.setReg t r w).dma0 = x.dma0 := rfl
@[simp] theorem Core.setReg_dma1 (x : Core) (t r : Nat) (w : TWord) : (x.setReg t r w).dma1 = x.dma1 := rfl
@[simp] theorem Core.setReg_trk (x : Core) (t r : Nat) (w : TWord) : (x.setReg t r w).trk = x.trk := rfl
@[simp] theorem Core.setReg_pace (x : Core) (t r : Nat) (w : TWord) : (x.setReg t r w).pace = x.pace := rfl
@[simp] theorem Core.setReg_writes (x : Core) (t r : Nat) (w : TWord) : (x.setReg t r w).writes = x.writes := rfl
@[simp] theorem Core.setReg_xid (x : Core) (t r : Nat) (w : TWord) : (x.setReg t r w).xid = x.xid := rfl
@[simp] theorem Core.setReg_seq (x : Core) (t r : Nat) (w : TWord) : (x.setReg t r w).seq = x.seq := rfl

/-! ### Core.setCho -/

@[simp] theorem Core.setCho_held (x : Core) (n : Nat) (y : Cho) : (x.setCho n y).held = x.held := rfl
@[simp] theorem Core.setCho_lock (x : Core) (n : Nat) (y : Cho) : (x.setCho n y).lock = x.lock := rfl
@[simp] theorem Core.setCho_park (x : Core) (n : Nat) (y : Cho) : (x.setCho n y).park = x.park := rfl
@[simp] theorem Core.setCho_dispen (x : Core) (n : Nat) (y : Cho) : (x.setCho n y).dispen = x.dispen := rfl
@[simp] theorem Core.setCho_debug (x : Core) (n : Nat) (y : Cho) : (x.setCho n y).debug = x.debug := rfl
@[simp] theorem Core.setCho_qown (x : Core) (n : Nat) (y : Cho) : (x.setCho n y).qown = x.qown := rfl
@[simp] theorem Core.setCho_steps (x : Core) (n : Nat) (y : Cho) : (x.setCho n y).steps = x.steps := rfl
@[simp] theorem Core.setCho_thr (x : Core) (n : Nat) (y : Cho) : (x.setCho n y).thr = x.thr := rfl
@[simp] theorem Core.setCho_entEn (x : Core) (n : Nat) (y : Cho) : (x.setCho n y).entEn = x.entEn := rfl
@[simp] theorem Core.setCho_entMl (x : Core) (n : Nat) (y : Cho) : (x.setCho n y).entMl = x.entMl := rfl
@[simp] theorem Core.setCho_entAddr (x : Core) (n : Nat) (y : Cho) : (x.setCho n y).entAddr = x.entAddr := rfl
@[simp] theorem Core.setCho_exv (x : Core) (n : Nat) (y : Cho) : (x.setCho n y).exv = x.exv := rfl
@[simp] theorem Core.setCho_irqv (x : Core) (n : Nat) (y : Cho) : (x.setCho n y).irqv = x.irqv := rfl
@[simp] theorem Core.setCho_dfv (x : Core) (n : Nat) (y : Cho) : (x.setCho n y).dfv = x.dfv := rfl
@[simp] theorem Core.setCho_vecmode (x : Core) (n : Nat) (y : Cho) : (x.setCho n y).vecmode = x.vecmode := rfl
@[simp] theorem Core.setCho_nxmap (x : Core) (n : Nat) (y : Cho) : (x.setCho n y).nxmap = x.nxmap := rfl
@[simp] theorem Core.setCho_imem (x : Core) (n : Nat) (y : Cho) : (x.setCho n y).imem = x.imem := rfl
@[simp] theorem Core.setCho_imark (x : Core) (n : Nat) (y : Cho) : (x.setCho n y).imark = x.imark := rfl
@[simp] theorem Core.setCho_spad (x : Core) (n : Nat) (y : Cho) : (x.setCho n y).spad = x.spad := rfl
@[simp] theorem Core.setCho_rings (x : Core) (n : Nat) (y : Cho) : (x.setCho n y).rings = x.rings := rfl
@[simp] theorem Core.setCho_chi (x : Core) (n : Nat) (y : Cho) : (x.setCho n y).chi = x.chi := rfl
@[simp] theorem Core.setCho_out (x : Core) (n : Nat) (y : Cho) : (x.setCho n y).out = x.out := rfl
@[simp] theorem Core.setCho_sc (x : Core) (n : Nat) (y : Cho) : (x.setCho n y).sc = x.sc := rfl
@[simp] theorem Core.setCho_scBrk (x : Core) (n : Nat) (y : Cho) : (x.setCho n y).scBrk = x.scBrk := rfl
@[simp] theorem Core.setCho_part (x : Core) (n : Nat) (y : Cho) : (x.setCho n y).part = x.part := rfl
@[simp] theorem Core.setCho_arrive (x : Core) (n : Nat) (y : Cho) : (x.setCho n y).arrive = x.arrive := rfl
@[simp] theorem Core.setCho_bgen (x : Core) (n : Nat) (y : Cho) : (x.setCho n y).bgen = x.bgen := rfl
@[simp] theorem Core.setCho_mxe (x : Core) (n : Nat) (y : Cho) : (x.setCho n y).mxe = x.mxe := rfl
@[simp] theorem Core.setCho_vxe (x : Core) (n : Nat) (y : Cho) : (x.setCho n y).vxe = x.vxe := rfl
@[simp] theorem Core.setCho_dma0 (x : Core) (n : Nat) (y : Cho) : (x.setCho n y).dma0 = x.dma0 := rfl
@[simp] theorem Core.setCho_dma1 (x : Core) (n : Nat) (y : Cho) : (x.setCho n y).dma1 = x.dma1 := rfl
@[simp] theorem Core.setCho_trk (x : Core) (n : Nat) (y : Cho) : (x.setCho n y).trk = x.trk := rfl
@[simp] theorem Core.setCho_pace (x : Core) (n : Nat) (y : Cho) : (x.setCho n y).pace = x.pace := rfl
@[simp] theorem Core.setCho_writes (x : Core) (n : Nat) (y : Cho) : (x.setCho n y).writes = x.writes := rfl
@[simp] theorem Core.setCho_xid (x : Core) (n : Nat) (y : Cho) : (x.setCho n y).xid = x.xid := rfl
@[simp] theorem Core.setCho_seq (x : Core) (n : Nat) (y : Cho) : (x.setCho n y).seq = x.seq := rfl

/-! ### Core.setChi -/

@[simp] theorem Core.setChi_held (x : Core) (n : Nat) (y : Chi) : (x.setChi n y).held = x.held := rfl
@[simp] theorem Core.setChi_lock (x : Core) (n : Nat) (y : Chi) : (x.setChi n y).lock = x.lock := rfl
@[simp] theorem Core.setChi_park (x : Core) (n : Nat) (y : Chi) : (x.setChi n y).park = x.park := rfl
@[simp] theorem Core.setChi_dispen (x : Core) (n : Nat) (y : Chi) : (x.setChi n y).dispen = x.dispen := rfl
@[simp] theorem Core.setChi_debug (x : Core) (n : Nat) (y : Chi) : (x.setChi n y).debug = x.debug := rfl
@[simp] theorem Core.setChi_qown (x : Core) (n : Nat) (y : Chi) : (x.setChi n y).qown = x.qown := rfl
@[simp] theorem Core.setChi_steps (x : Core) (n : Nat) (y : Chi) : (x.setChi n y).steps = x.steps := rfl
@[simp] theorem Core.setChi_thr (x : Core) (n : Nat) (y : Chi) : (x.setChi n y).thr = x.thr := rfl
@[simp] theorem Core.setChi_entEn (x : Core) (n : Nat) (y : Chi) : (x.setChi n y).entEn = x.entEn := rfl
@[simp] theorem Core.setChi_entMl (x : Core) (n : Nat) (y : Chi) : (x.setChi n y).entMl = x.entMl := rfl
@[simp] theorem Core.setChi_entAddr (x : Core) (n : Nat) (y : Chi) : (x.setChi n y).entAddr = x.entAddr := rfl
@[simp] theorem Core.setChi_exv (x : Core) (n : Nat) (y : Chi) : (x.setChi n y).exv = x.exv := rfl
@[simp] theorem Core.setChi_irqv (x : Core) (n : Nat) (y : Chi) : (x.setChi n y).irqv = x.irqv := rfl
@[simp] theorem Core.setChi_dfv (x : Core) (n : Nat) (y : Chi) : (x.setChi n y).dfv = x.dfv := rfl
@[simp] theorem Core.setChi_vecmode (x : Core) (n : Nat) (y : Chi) : (x.setChi n y).vecmode = x.vecmode := rfl
@[simp] theorem Core.setChi_nxmap (x : Core) (n : Nat) (y : Chi) : (x.setChi n y).nxmap = x.nxmap := rfl
@[simp] theorem Core.setChi_imem (x : Core) (n : Nat) (y : Chi) : (x.setChi n y).imem = x.imem := rfl
@[simp] theorem Core.setChi_imark (x : Core) (n : Nat) (y : Chi) : (x.setChi n y).imark = x.imark := rfl
@[simp] theorem Core.setChi_spad (x : Core) (n : Nat) (y : Chi) : (x.setChi n y).spad = x.spad := rfl
@[simp] theorem Core.setChi_rings (x : Core) (n : Nat) (y : Chi) : (x.setChi n y).rings = x.rings := rfl
@[simp] theorem Core.setChi_cho (x : Core) (n : Nat) (y : Chi) : (x.setChi n y).cho = x.cho := rfl
@[simp] theorem Core.setChi_out (x : Core) (n : Nat) (y : Chi) : (x.setChi n y).out = x.out := rfl
@[simp] theorem Core.setChi_sc (x : Core) (n : Nat) (y : Chi) : (x.setChi n y).sc = x.sc := rfl
@[simp] theorem Core.setChi_scBrk (x : Core) (n : Nat) (y : Chi) : (x.setChi n y).scBrk = x.scBrk := rfl
@[simp] theorem Core.setChi_part (x : Core) (n : Nat) (y : Chi) : (x.setChi n y).part = x.part := rfl
@[simp] theorem Core.setChi_arrive (x : Core) (n : Nat) (y : Chi) : (x.setChi n y).arrive = x.arrive := rfl
@[simp] theorem Core.setChi_bgen (x : Core) (n : Nat) (y : Chi) : (x.setChi n y).bgen = x.bgen := rfl
@[simp] theorem Core.setChi_mxe (x : Core) (n : Nat) (y : Chi) : (x.setChi n y).mxe = x.mxe := rfl
@[simp] theorem Core.setChi_vxe (x : Core) (n : Nat) (y : Chi) : (x.setChi n y).vxe = x.vxe := rfl
@[simp] theorem Core.setChi_dma0 (x : Core) (n : Nat) (y : Chi) : (x.setChi n y).dma0 = x.dma0 := rfl
@[simp] theorem Core.setChi_dma1 (x : Core) (n : Nat) (y : Chi) : (x.setChi n y).dma1 = x.dma1 := rfl
@[simp] theorem Core.setChi_trk (x : Core) (n : Nat) (y : Chi) : (x.setChi n y).trk = x.trk := rfl
@[simp] theorem Core.setChi_pace (x : Core) (n : Nat) (y : Chi) : (x.setChi n y).pace = x.pace := rfl
@[simp] theorem Core.setChi_writes (x : Core) (n : Nat) (y : Chi) : (x.setChi n y).writes = x.writes := rfl
@[simp] theorem Core.setChi_xid (x : Core) (n : Nat) (y : Chi) : (x.setChi n y).xid = x.xid := rfl
@[simp] theorem Core.setChi_seq (x : Core) (n : Nat) (y : Chi) : (x.setChi n y).seq = x.seq := rfl

/-! ### Core.setRing -/

@[simp] theorem Core.setRing_held (x : Core) (n : Nat) (y : Ring) : (x.setRing n y).held = x.held := rfl
@[simp] theorem Core.setRing_lock (x : Core) (n : Nat) (y : Ring) : (x.setRing n y).lock = x.lock := rfl
@[simp] theorem Core.setRing_park (x : Core) (n : Nat) (y : Ring) : (x.setRing n y).park = x.park := rfl
@[simp] theorem Core.setRing_dispen (x : Core) (n : Nat) (y : Ring) : (x.setRing n y).dispen = x.dispen := rfl
@[simp] theorem Core.setRing_debug (x : Core) (n : Nat) (y : Ring) : (x.setRing n y).debug = x.debug := rfl
@[simp] theorem Core.setRing_qown (x : Core) (n : Nat) (y : Ring) : (x.setRing n y).qown = x.qown := rfl
@[simp] theorem Core.setRing_steps (x : Core) (n : Nat) (y : Ring) : (x.setRing n y).steps = x.steps := rfl
@[simp] theorem Core.setRing_thr (x : Core) (n : Nat) (y : Ring) : (x.setRing n y).thr = x.thr := rfl
@[simp] theorem Core.setRing_entEn (x : Core) (n : Nat) (y : Ring) : (x.setRing n y).entEn = x.entEn := rfl
@[simp] theorem Core.setRing_entMl (x : Core) (n : Nat) (y : Ring) : (x.setRing n y).entMl = x.entMl := rfl
@[simp] theorem Core.setRing_entAddr (x : Core) (n : Nat) (y : Ring) : (x.setRing n y).entAddr = x.entAddr := rfl
@[simp] theorem Core.setRing_exv (x : Core) (n : Nat) (y : Ring) : (x.setRing n y).exv = x.exv := rfl
@[simp] theorem Core.setRing_irqv (x : Core) (n : Nat) (y : Ring) : (x.setRing n y).irqv = x.irqv := rfl
@[simp] theorem Core.setRing_dfv (x : Core) (n : Nat) (y : Ring) : (x.setRing n y).dfv = x.dfv := rfl
@[simp] theorem Core.setRing_vecmode (x : Core) (n : Nat) (y : Ring) : (x.setRing n y).vecmode = x.vecmode := rfl
@[simp] theorem Core.setRing_nxmap (x : Core) (n : Nat) (y : Ring) : (x.setRing n y).nxmap = x.nxmap := rfl
@[simp] theorem Core.setRing_imem (x : Core) (n : Nat) (y : Ring) : (x.setRing n y).imem = x.imem := rfl
@[simp] theorem Core.setRing_imark (x : Core) (n : Nat) (y : Ring) : (x.setRing n y).imark = x.imark := rfl
@[simp] theorem Core.setRing_spad (x : Core) (n : Nat) (y : Ring) : (x.setRing n y).spad = x.spad := rfl
@[simp] theorem Core.setRing_cho (x : Core) (n : Nat) (y : Ring) : (x.setRing n y).cho = x.cho := rfl
@[simp] theorem Core.setRing_chi (x : Core) (n : Nat) (y : Ring) : (x.setRing n y).chi = x.chi := rfl
@[simp] theorem Core.setRing_out (x : Core) (n : Nat) (y : Ring) : (x.setRing n y).out = x.out := rfl
@[simp] theorem Core.setRing_sc (x : Core) (n : Nat) (y : Ring) : (x.setRing n y).sc = x.sc := rfl
@[simp] theorem Core.setRing_scBrk (x : Core) (n : Nat) (y : Ring) : (x.setRing n y).scBrk = x.scBrk := rfl
@[simp] theorem Core.setRing_part (x : Core) (n : Nat) (y : Ring) : (x.setRing n y).part = x.part := rfl
@[simp] theorem Core.setRing_arrive (x : Core) (n : Nat) (y : Ring) : (x.setRing n y).arrive = x.arrive := rfl
@[simp] theorem Core.setRing_bgen (x : Core) (n : Nat) (y : Ring) : (x.setRing n y).bgen = x.bgen := rfl
@[simp] theorem Core.setRing_mxe (x : Core) (n : Nat) (y : Ring) : (x.setRing n y).mxe = x.mxe := rfl
@[simp] theorem Core.setRing_vxe (x : Core) (n : Nat) (y : Ring) : (x.setRing n y).vxe = x.vxe := rfl
@[simp] theorem Core.setRing_dma0 (x : Core) (n : Nat) (y : Ring) : (x.setRing n y).dma0 = x.dma0 := rfl
@[simp] theorem Core.setRing_dma1 (x : Core) (n : Nat) (y : Ring) : (x.setRing n y).dma1 = x.dma1 := rfl
@[simp] theorem Core.setRing_trk (x : Core) (n : Nat) (y : Ring) : (x.setRing n y).trk = x.trk := rfl
@[simp] theorem Core.setRing_pace (x : Core) (n : Nat) (y : Ring) : (x.setRing n y).pace = x.pace := rfl
@[simp] theorem Core.setRing_writes (x : Core) (n : Nat) (y : Ring) : (x.setRing n y).writes = x.writes := rfl
@[simp] theorem Core.setRing_xid (x : Core) (n : Nat) (y : Ring) : (x.setRing n y).xid = x.xid := rfl
@[simp] theorem Core.setRing_seq (x : Core) (n : Nat) (y : Ring) : (x.setRing n y).seq = x.seq := rfl

/-! ### Core.setSc -/

@[simp] theorem Core.setSc_held (x : Core) (n : Nat) (y : Word) : (x.setSc n y).held = x.held := rfl
@[simp] theorem Core.setSc_lock (x : Core) (n : Nat) (y : Word) : (x.setSc n y).lock = x.lock := rfl
@[simp] theorem Core.setSc_park (x : Core) (n : Nat) (y : Word) : (x.setSc n y).park = x.park := rfl
@[simp] theorem Core.setSc_dispen (x : Core) (n : Nat) (y : Word) : (x.setSc n y).dispen = x.dispen := rfl
@[simp] theorem Core.setSc_debug (x : Core) (n : Nat) (y : Word) : (x.setSc n y).debug = x.debug := rfl
@[simp] theorem Core.setSc_qown (x : Core) (n : Nat) (y : Word) : (x.setSc n y).qown = x.qown := rfl
@[simp] theorem Core.setSc_steps (x : Core) (n : Nat) (y : Word) : (x.setSc n y).steps = x.steps := rfl
@[simp] theorem Core.setSc_thr (x : Core) (n : Nat) (y : Word) : (x.setSc n y).thr = x.thr := rfl
@[simp] theorem Core.setSc_entEn (x : Core) (n : Nat) (y : Word) : (x.setSc n y).entEn = x.entEn := rfl
@[simp] theorem Core.setSc_entMl (x : Core) (n : Nat) (y : Word) : (x.setSc n y).entMl = x.entMl := rfl
@[simp] theorem Core.setSc_entAddr (x : Core) (n : Nat) (y : Word) : (x.setSc n y).entAddr = x.entAddr := rfl
@[simp] theorem Core.setSc_exv (x : Core) (n : Nat) (y : Word) : (x.setSc n y).exv = x.exv := rfl
@[simp] theorem Core.setSc_irqv (x : Core) (n : Nat) (y : Word) : (x.setSc n y).irqv = x.irqv := rfl
@[simp] theorem Core.setSc_dfv (x : Core) (n : Nat) (y : Word) : (x.setSc n y).dfv = x.dfv := rfl
@[simp] theorem Core.setSc_vecmode (x : Core) (n : Nat) (y : Word) : (x.setSc n y).vecmode = x.vecmode := rfl
@[simp] theorem Core.setSc_nxmap (x : Core) (n : Nat) (y : Word) : (x.setSc n y).nxmap = x.nxmap := rfl
@[simp] theorem Core.setSc_imem (x : Core) (n : Nat) (y : Word) : (x.setSc n y).imem = x.imem := rfl
@[simp] theorem Core.setSc_imark (x : Core) (n : Nat) (y : Word) : (x.setSc n y).imark = x.imark := rfl
@[simp] theorem Core.setSc_spad (x : Core) (n : Nat) (y : Word) : (x.setSc n y).spad = x.spad := rfl
@[simp] theorem Core.setSc_rings (x : Core) (n : Nat) (y : Word) : (x.setSc n y).rings = x.rings := rfl
@[simp] theorem Core.setSc_cho (x : Core) (n : Nat) (y : Word) : (x.setSc n y).cho = x.cho := rfl
@[simp] theorem Core.setSc_chi (x : Core) (n : Nat) (y : Word) : (x.setSc n y).chi = x.chi := rfl
@[simp] theorem Core.setSc_out (x : Core) (n : Nat) (y : Word) : (x.setSc n y).out = x.out := rfl
@[simp] theorem Core.setSc_scBrk (x : Core) (n : Nat) (y : Word) : (x.setSc n y).scBrk = x.scBrk := rfl
@[simp] theorem Core.setSc_part (x : Core) (n : Nat) (y : Word) : (x.setSc n y).part = x.part := rfl
@[simp] theorem Core.setSc_arrive (x : Core) (n : Nat) (y : Word) : (x.setSc n y).arrive = x.arrive := rfl
@[simp] theorem Core.setSc_bgen (x : Core) (n : Nat) (y : Word) : (x.setSc n y).bgen = x.bgen := rfl
@[simp] theorem Core.setSc_mxe (x : Core) (n : Nat) (y : Word) : (x.setSc n y).mxe = x.mxe := rfl
@[simp] theorem Core.setSc_vxe (x : Core) (n : Nat) (y : Word) : (x.setSc n y).vxe = x.vxe := rfl
@[simp] theorem Core.setSc_dma0 (x : Core) (n : Nat) (y : Word) : (x.setSc n y).dma0 = x.dma0 := rfl
@[simp] theorem Core.setSc_dma1 (x : Core) (n : Nat) (y : Word) : (x.setSc n y).dma1 = x.dma1 := rfl
@[simp] theorem Core.setSc_trk (x : Core) (n : Nat) (y : Word) : (x.setSc n y).trk = x.trk := rfl
@[simp] theorem Core.setSc_pace (x : Core) (n : Nat) (y : Word) : (x.setSc n y).pace = x.pace := rfl
@[simp] theorem Core.setSc_writes (x : Core) (n : Nat) (y : Word) : (x.setSc n y).writes = x.writes := rfl
@[simp] theorem Core.setSc_xid (x : Core) (n : Nat) (y : Word) : (x.setSc n y).xid = x.xid := rfl
@[simp] theorem Core.setSc_seq (x : Core) (n : Nat) (y : Word) : (x.setSc n y).seq = x.seq := rfl

/-! ### Core.setBgen -/

@[simp] theorem Core.setBgen_held (x : Core) (n : Nat) (y : Word) : (x.setBgen n y).held = x.held := rfl
@[simp] theorem Core.setBgen_lock (x : Core) (n : Nat) (y : Word) : (x.setBgen n y).lock = x.lock := rfl
@[simp] theorem Core.setBgen_park (x : Core) (n : Nat) (y : Word) : (x.setBgen n y).park = x.park := rfl
@[simp] theorem Core.setBgen_dispen (x : Core) (n : Nat) (y : Word) : (x.setBgen n y).dispen = x.dispen := rfl
@[simp] theorem Core.setBgen_debug (x : Core) (n : Nat) (y : Word) : (x.setBgen n y).debug = x.debug := rfl
@[simp] theorem Core.setBgen_qown (x : Core) (n : Nat) (y : Word) : (x.setBgen n y).qown = x.qown := rfl
@[simp] theorem Core.setBgen_steps (x : Core) (n : Nat) (y : Word) : (x.setBgen n y).steps = x.steps := rfl
@[simp] theorem Core.setBgen_thr (x : Core) (n : Nat) (y : Word) : (x.setBgen n y).thr = x.thr := rfl
@[simp] theorem Core.setBgen_entEn (x : Core) (n : Nat) (y : Word) : (x.setBgen n y).entEn = x.entEn := rfl
@[simp] theorem Core.setBgen_entMl (x : Core) (n : Nat) (y : Word) : (x.setBgen n y).entMl = x.entMl := rfl
@[simp] theorem Core.setBgen_entAddr (x : Core) (n : Nat) (y : Word) : (x.setBgen n y).entAddr = x.entAddr := rfl
@[simp] theorem Core.setBgen_exv (x : Core) (n : Nat) (y : Word) : (x.setBgen n y).exv = x.exv := rfl
@[simp] theorem Core.setBgen_irqv (x : Core) (n : Nat) (y : Word) : (x.setBgen n y).irqv = x.irqv := rfl
@[simp] theorem Core.setBgen_dfv (x : Core) (n : Nat) (y : Word) : (x.setBgen n y).dfv = x.dfv := rfl
@[simp] theorem Core.setBgen_vecmode (x : Core) (n : Nat) (y : Word) : (x.setBgen n y).vecmode = x.vecmode := rfl
@[simp] theorem Core.setBgen_nxmap (x : Core) (n : Nat) (y : Word) : (x.setBgen n y).nxmap = x.nxmap := rfl
@[simp] theorem Core.setBgen_imem (x : Core) (n : Nat) (y : Word) : (x.setBgen n y).imem = x.imem := rfl
@[simp] theorem Core.setBgen_imark (x : Core) (n : Nat) (y : Word) : (x.setBgen n y).imark = x.imark := rfl
@[simp] theorem Core.setBgen_spad (x : Core) (n : Nat) (y : Word) : (x.setBgen n y).spad = x.spad := rfl
@[simp] theorem Core.setBgen_rings (x : Core) (n : Nat) (y : Word) : (x.setBgen n y).rings = x.rings := rfl
@[simp] theorem Core.setBgen_cho (x : Core) (n : Nat) (y : Word) : (x.setBgen n y).cho = x.cho := rfl
@[simp] theorem Core.setBgen_chi (x : Core) (n : Nat) (y : Word) : (x.setBgen n y).chi = x.chi := rfl
@[simp] theorem Core.setBgen_out (x : Core) (n : Nat) (y : Word) : (x.setBgen n y).out = x.out := rfl
@[simp] theorem Core.setBgen_sc (x : Core) (n : Nat) (y : Word) : (x.setBgen n y).sc = x.sc := rfl
@[simp] theorem Core.setBgen_scBrk (x : Core) (n : Nat) (y : Word) : (x.setBgen n y).scBrk = x.scBrk := rfl
@[simp] theorem Core.setBgen_part (x : Core) (n : Nat) (y : Word) : (x.setBgen n y).part = x.part := rfl
@[simp] theorem Core.setBgen_arrive (x : Core) (n : Nat) (y : Word) : (x.setBgen n y).arrive = x.arrive := rfl
@[simp] theorem Core.setBgen_mxe (x : Core) (n : Nat) (y : Word) : (x.setBgen n y).mxe = x.mxe := rfl
@[simp] theorem Core.setBgen_vxe (x : Core) (n : Nat) (y : Word) : (x.setBgen n y).vxe = x.vxe := rfl
@[simp] theorem Core.setBgen_dma0 (x : Core) (n : Nat) (y : Word) : (x.setBgen n y).dma0 = x.dma0 := rfl
@[simp] theorem Core.setBgen_dma1 (x : Core) (n : Nat) (y : Word) : (x.setBgen n y).dma1 = x.dma1 := rfl
@[simp] theorem Core.setBgen_trk (x : Core) (n : Nat) (y : Word) : (x.setBgen n y).trk = x.trk := rfl
@[simp] theorem Core.setBgen_pace (x : Core) (n : Nat) (y : Word) : (x.setBgen n y).pace = x.pace := rfl
@[simp] theorem Core.setBgen_writes (x : Core) (n : Nat) (y : Word) : (x.setBgen n y).writes = x.writes := rfl
@[simp] theorem Core.setBgen_xid (x : Core) (n : Nat) (y : Word) : (x.setBgen n y).xid = x.xid := rfl
@[simp] theorem Core.setBgen_seq (x : Core) (n : Nat) (y : Word) : (x.setBgen n y).seq = x.seq := rfl

/-! ### Core.countConfl -/

@[simp] theorem Core.countConfl_held (x : Core) : (x.countConfl).held = x.held := rfl
@[simp] theorem Core.countConfl_lock (x : Core) : (x.countConfl).lock = x.lock := rfl
@[simp] theorem Core.countConfl_park (x : Core) : (x.countConfl).park = x.park := rfl
@[simp] theorem Core.countConfl_dispen (x : Core) : (x.countConfl).dispen = x.dispen := rfl
@[simp] theorem Core.countConfl_debug (x : Core) : (x.countConfl).debug = x.debug := rfl
@[simp] theorem Core.countConfl_qown (x : Core) : (x.countConfl).qown = x.qown := rfl
@[simp] theorem Core.countConfl_steps (x : Core) : (x.countConfl).steps = x.steps := rfl
@[simp] theorem Core.countConfl_thr (x : Core) : (x.countConfl).thr = x.thr := rfl
@[simp] theorem Core.countConfl_entEn (x : Core) : (x.countConfl).entEn = x.entEn := rfl
@[simp] theorem Core.countConfl_entMl (x : Core) : (x.countConfl).entMl = x.entMl := rfl
@[simp] theorem Core.countConfl_entAddr (x : Core) : (x.countConfl).entAddr = x.entAddr := rfl
@[simp] theorem Core.countConfl_exv (x : Core) : (x.countConfl).exv = x.exv := rfl
@[simp] theorem Core.countConfl_irqv (x : Core) : (x.countConfl).irqv = x.irqv := rfl
@[simp] theorem Core.countConfl_dfv (x : Core) : (x.countConfl).dfv = x.dfv := rfl
@[simp] theorem Core.countConfl_vecmode (x : Core) : (x.countConfl).vecmode = x.vecmode := rfl
@[simp] theorem Core.countConfl_nxmap (x : Core) : (x.countConfl).nxmap = x.nxmap := rfl
@[simp] theorem Core.countConfl_imem (x : Core) : (x.countConfl).imem = x.imem := rfl
@[simp] theorem Core.countConfl_imark (x : Core) : (x.countConfl).imark = x.imark := rfl
@[simp] theorem Core.countConfl_spad (x : Core) : (x.countConfl).spad = x.spad := rfl
@[simp] theorem Core.countConfl_rings (x : Core) : (x.countConfl).rings = x.rings := rfl
@[simp] theorem Core.countConfl_cho (x : Core) : (x.countConfl).cho = x.cho := rfl
@[simp] theorem Core.countConfl_chi (x : Core) : (x.countConfl).chi = x.chi := rfl
@[simp] theorem Core.countConfl_out (x : Core) : (x.countConfl).out = x.out := rfl
@[simp] theorem Core.countConfl_sc (x : Core) : (x.countConfl).sc = x.sc := rfl
@[simp] theorem Core.countConfl_scBrk (x : Core) : (x.countConfl).scBrk = x.scBrk := rfl
@[simp] theorem Core.countConfl_part (x : Core) : (x.countConfl).part = x.part := rfl
@[simp] theorem Core.countConfl_arrive (x : Core) : (x.countConfl).arrive = x.arrive := rfl
@[simp] theorem Core.countConfl_bgen (x : Core) : (x.countConfl).bgen = x.bgen := rfl
@[simp] theorem Core.countConfl_mxe (x : Core) : (x.countConfl).mxe = x.mxe := rfl
@[simp] theorem Core.countConfl_vxe (x : Core) : (x.countConfl).vxe = x.vxe := rfl
@[simp] theorem Core.countConfl_dma0 (x : Core) : (x.countConfl).dma0 = x.dma0 := rfl
@[simp] theorem Core.countConfl_dma1 (x : Core) : (x.countConfl).dma1 = x.dma1 := rfl
@[simp] theorem Core.countConfl_pace (x : Core) : (x.countConfl).pace = x.pace := rfl
@[simp] theorem Core.countConfl_writes (x : Core) : (x.countConfl).writes = x.writes := rfl
@[simp] theorem Core.countConfl_xid (x : Core) : (x.countConfl).xid = x.xid := rfl
@[simp] theorem Core.countConfl_seq (x : Core) : (x.countConfl).seq = x.seq := rfl

/-! ### Core.trkDrop -/

@[simp] theorem Core.trkDrop_held (x : Core) (i : Nat) : (x.trkDrop i).held = x.held := rfl
@[simp] theorem Core.trkDrop_lock (x : Core) (i : Nat) : (x.trkDrop i).lock = x.lock := rfl
@[simp] theorem Core.trkDrop_park (x : Core) (i : Nat) : (x.trkDrop i).park = x.park := rfl
@[simp] theorem Core.trkDrop_dispen (x : Core) (i : Nat) : (x.trkDrop i).dispen = x.dispen := rfl
@[simp] theorem Core.trkDrop_debug (x : Core) (i : Nat) : (x.trkDrop i).debug = x.debug := rfl
@[simp] theorem Core.trkDrop_qown (x : Core) (i : Nat) : (x.trkDrop i).qown = x.qown := rfl
@[simp] theorem Core.trkDrop_steps (x : Core) (i : Nat) : (x.trkDrop i).steps = x.steps := rfl
@[simp] theorem Core.trkDrop_thr (x : Core) (i : Nat) : (x.trkDrop i).thr = x.thr := rfl
@[simp] theorem Core.trkDrop_entEn (x : Core) (i : Nat) : (x.trkDrop i).entEn = x.entEn := rfl
@[simp] theorem Core.trkDrop_entMl (x : Core) (i : Nat) : (x.trkDrop i).entMl = x.entMl := rfl
@[simp] theorem Core.trkDrop_entAddr (x : Core) (i : Nat) : (x.trkDrop i).entAddr = x.entAddr := rfl
@[simp] theorem Core.trkDrop_exv (x : Core) (i : Nat) : (x.trkDrop i).exv = x.exv := rfl
@[simp] theorem Core.trkDrop_irqv (x : Core) (i : Nat) : (x.trkDrop i).irqv = x.irqv := rfl
@[simp] theorem Core.trkDrop_dfv (x : Core) (i : Nat) : (x.trkDrop i).dfv = x.dfv := rfl
@[simp] theorem Core.trkDrop_vecmode (x : Core) (i : Nat) : (x.trkDrop i).vecmode = x.vecmode := rfl
@[simp] theorem Core.trkDrop_nxmap (x : Core) (i : Nat) : (x.trkDrop i).nxmap = x.nxmap := rfl
@[simp] theorem Core.trkDrop_imem (x : Core) (i : Nat) : (x.trkDrop i).imem = x.imem := rfl
@[simp] theorem Core.trkDrop_imark (x : Core) (i : Nat) : (x.trkDrop i).imark = x.imark := rfl
@[simp] theorem Core.trkDrop_spad (x : Core) (i : Nat) : (x.trkDrop i).spad = x.spad := rfl
@[simp] theorem Core.trkDrop_rings (x : Core) (i : Nat) : (x.trkDrop i).rings = x.rings := rfl
@[simp] theorem Core.trkDrop_cho (x : Core) (i : Nat) : (x.trkDrop i).cho = x.cho := rfl
@[simp] theorem Core.trkDrop_chi (x : Core) (i : Nat) : (x.trkDrop i).chi = x.chi := rfl
@[simp] theorem Core.trkDrop_out (x : Core) (i : Nat) : (x.trkDrop i).out = x.out := rfl
@[simp] theorem Core.trkDrop_sc (x : Core) (i : Nat) : (x.trkDrop i).sc = x.sc := rfl
@[simp] theorem Core.trkDrop_scBrk (x : Core) (i : Nat) : (x.trkDrop i).scBrk = x.scBrk := rfl
@[simp] theorem Core.trkDrop_part (x : Core) (i : Nat) : (x.trkDrop i).part = x.part := rfl
@[simp] theorem Core.trkDrop_arrive (x : Core) (i : Nat) : (x.trkDrop i).arrive = x.arrive := rfl
@[simp] theorem Core.trkDrop_bgen (x : Core) (i : Nat) : (x.trkDrop i).bgen = x.bgen := rfl
@[simp] theorem Core.trkDrop_mxe (x : Core) (i : Nat) : (x.trkDrop i).mxe = x.mxe := rfl
@[simp] theorem Core.trkDrop_vxe (x : Core) (i : Nat) : (x.trkDrop i).vxe = x.vxe := rfl
@[simp] theorem Core.trkDrop_dma0 (x : Core) (i : Nat) : (x.trkDrop i).dma0 = x.dma0 := rfl
@[simp] theorem Core.trkDrop_dma1 (x : Core) (i : Nat) : (x.trkDrop i).dma1 = x.dma1 := rfl
@[simp] theorem Core.trkDrop_pace (x : Core) (i : Nat) : (x.trkDrop i).pace = x.pace := rfl
@[simp] theorem Core.trkDrop_writes (x : Core) (i : Nat) : (x.trkDrop i).writes = x.writes := rfl
@[simp] theorem Core.trkDrop_xid (x : Core) (i : Nat) : (x.trkDrop i).xid = x.xid := rfl
@[simp] theorem Core.trkDrop_seq (x : Core) (i : Nat) : (x.trkDrop i).seq = x.seq := rfl

/-! ### Thread.setReg -/

@[simp] theorem Thread.setReg_place (x : Thread) (r : Nat) (w : TWord) : (x.setReg r w).place = x.place := by unfold Thread.setReg; split <;> rfl
@[simp] theorem Thread.setReg_pc (x : Thread) (r : Nat) (w : TWord) : (x.setReg r w).pc = x.pc := by unfold Thread.setReg; split <;> rfl
@[simp] theorem Thread.setReg_ls0 (x : Thread) (r : Nat) (w : TWord) : (x.setReg r w).ls0 = x.ls0 := by unfold Thread.setReg; split <;> rfl
@[simp] theorem Thread.setReg_le0 (x : Thread) (r : Nat) (w : TWord) : (x.setReg r w).le0 = x.le0 := by unfold Thread.setReg; split <;> rfl
@[simp] theorem Thread.setReg_lc0 (x : Thread) (r : Nat) (w : TWord) : (x.setReg r w).lc0 = x.lc0 := by unfold Thread.setReg; split <;> rfl
@[simp] theorem Thread.setReg_ls1 (x : Thread) (r : Nat) (w : TWord) : (x.setReg r w).ls1 = x.ls1 := by unfold Thread.setReg; split <;> rfl
@[simp] theorem Thread.setReg_le1 (x : Thread) (r : Nat) (w : TWord) : (x.setReg r w).le1 = x.le1 := by unfold Thread.setReg; split <;> rfl
@[simp] theorem Thread.setReg_lc1 (x : Thread) (r : Nat) (w : TWord) : (x.setReg r w).lc1 = x.lc1 := by unfold Thread.setReg; split <;> rfl
@[simp] theorem Thread.setReg_fsr (x : Thread) (r : Nat) (w : TWord) : (x.setReg r w).fsr = x.fsr := by unfold Thread.setReg; split <;> rfl
@[simp] theorem Thread.setReg_smode (x : Thread) (r : Nat) (w : TWord) : (x.setReg r w).smode = x.smode := by unfold Thread.setReg; split <;> rfl
@[simp] theorem Thread.setReg_st (x : Thread) (r : Nat) (w : TWord) : (x.setReg r w).st = x.st := by unfold Thread.setReg; split <;> rfl
@[simp] theorem Thread.setReg_prior (x : Thread) (r : Nat) (w : TWord) : (x.setReg r w).prior = x.prior := by unfold Thread.setReg; split <;> rfl
@[simp] theorem Thread.setReg_wcause (x : Thread) (r : Nat) (w : TWord) : (x.setReg r w).wcause = x.wcause := by unfold Thread.setReg; split <;> rfl
@[simp] theorem Thread.setReg_waitOp (x : Thread) (r : Nat) (w : TWord) : (x.setReg r w).waitOp = x.waitOp := by unfold Thread.setReg; split <;> rfl
@[simp] theorem Thread.setReg_parkedByBit (x : Thread) (r : Nat) (w : TWord) : (x.setReg r w).parkedByBit = x.parkedByBit := by unfold Thread.setReg; split <;> rfl
@[simp] theorem Thread.setReg_msg (x : Thread) (r : Nat) (w : TWord) : (x.setReg r w).msg = x.msg := by unfold Thread.setReg; split <;> rfl
@[simp] theorem Thread.setReg_entry (x : Thread) (r : Nat) (w : TWord) : (x.setReg r w).entry = x.entry := by unfold Thread.setReg; split <;> rfl
@[simp] theorem Thread.setReg_startS (x : Thread) (r : Nat) (w : TWord) : (x.setReg r w).startS = x.startS := by unfold Thread.setReg; split <;> rfl
@[simp] theorem Thread.setReg_disp (x : Thread) (r : Nat) (w : TWord) : (x.setReg r w).disp = x.disp := by unfold Thread.setReg; split <;> rfl
@[simp] theorem Thread.setReg_icount (x : Thread) (r : Nat) (w : TWord) : (x.setReg r w).icount = x.icount := by unfold Thread.setReg; split <;> rfl
@[simp] theorem Thread.setReg_wsteps (x : Thread) (r : Nat) (w : TWord) : (x.setReg r w).wsteps = x.wsteps := by unfold Thread.setReg; split <;> rfl
@[simp] theorem Thread.setReg_xra (x : Thread) (r : Nat) (w : TWord) : (x.setReg r w).xra = x.xra := by unfold Thread.setReg; split <;> rfl
@[simp] theorem Thread.setReg_dfh (x : Thread) (r : Nat) (w : TWord) : (x.setReg r w).dfh = x.dfh := by unfold Thread.setReg; split <;> rfl
@[simp] theorem Thread.setReg_arm (x : Thread) (r : Nat) (w : TWord) : (x.setReg r w).arm = x.arm := by unfold Thread.setReg; split <;> rfl
@[simp] theorem Thread.setReg_ml (x : Thread) (r : Nat) (w : TWord) : (x.setReg r w).ml = x.ml := by unfold Thread.setReg; split <;> rfl
@[simp] theorem Thread.setReg_pml (x : Thread) (r : Nat) (w : TWord) : (x.setReg r w).pml = x.pml := by unfold Thread.setReg; split <;> rfl
@[simp] theorem Thread.setReg_pmode (x : Thread) (r : Nat) (w : TWord) : (x.setReg r w).pmode = x.pmode := by unfold Thread.setReg; split <;> rfl
@[simp] theorem Thread.setReg_ds (x : Thread) (r : Nat) (w : TWord) : (x.setReg r w).ds = x.ds := by unfold Thread.setReg; split <;> rfl
@[simp] theorem Thread.setReg_xcause (x : Thread) (r : Nat) (w : TWord) : (x.setReg r w).xcause = x.xcause := by unfold Thread.setReg; split <;> rfl
@[simp] theorem Thread.setReg_xaddr (x : Thread) (r : Nat) (w : TWord) : (x.setReg r w).xaddr = x.xaddr := by unfold Thread.setReg; split <;> rfl
@[simp] theorem Thread.setReg_dra (x : Thread) (r : Nat) (w : TWord) : (x.setReg r w).dra = x.dra := by unfold Thread.setReg; split <;> rfl
@[simp] theorem Thread.setReg_dparm (x : Thread) (r : Nat) (w : TWord) : (x.setReg r w).dparm = x.dparm := by unfold Thread.setReg; split <;> rfl
@[simp] theorem Thread.setReg_dpml (x : Thread) (r : Nat) (w : TWord) : (x.setReg r w).dpml = x.dpml := by unfold Thread.setReg; split <;> rfl
@[simp] theorem Thread.setReg_dpmode (x : Thread) (r : Nat) (w : TWord) : (x.setReg r w).dpmode = x.dpmode := by unfold Thread.setReg; split <;> rfl
@[simp] theorem Thread.setReg_dds (x : Thread) (r : Nat) (w : TWord) : (x.setReg r w).dds = x.dds := by unfold Thread.setReg; split <;> rfl
@[simp] theorem Thread.setReg_xpend (x : Thread) (r : Nat) (w : TWord) : (x.setReg r w).xpend = x.xpend := by unfold Thread.setReg; split <;> rfl
@[simp] theorem Thread.setReg_tmrl (x : Thread) (r : Nat) (w : TWord) : (x.setReg r w).tmrl = x.tmrl := by unfold Thread.setReg; split <;> rfl
@[simp] theorem Thread.setReg_swil (x : Thread) (r : Nat) (w : TWord) : (x.setReg r w).swil = x.swil := by unfold Thread.setReg; split <;> rfl
@[simp] theorem Thread.setReg_ccl (x : Thread) (r : Nat) (w : TWord) : (x.setReg r w).ccl = x.ccl := by unfold Thread.setReg; split <;> rfl
@[simp] theorem Thread.setReg_wdtEn (x : Thread) (r : Nat) (w : TWord) : (x.setReg r w).wdtEn = x.wdtEn := by unfold Thread.setReg; split <;> rfl
@[simp] theorem Thread.setReg_wdtInt (x : Thread) (r : Nat) (w : TWord) : (x.setReg r w).wdtInt = x.wdtInt := by unfold Thread.setReg; split <;> rfl
@[simp] theorem Thread.setReg_wdtFrom (x : Thread) (r : Nat) (w : TWord) : (x.setReg r w).wdtFrom = x.wdtFrom := by unfold Thread.setReg; split <;> rfl
@[simp] theorem Thread.setReg_wdtFired (x : Thread) (r : Nat) (w : TWord) : (x.setReg r w).wdtFired = x.wdtFired := by unfold Thread.setReg; split <;> rfl
@[simp] theorem Thread.setReg_dmaLvl0 (x : Thread) (r : Nat) (w : TWord) : (x.setReg r w).dmaLvl0 = x.dmaLvl0 := by unfold Thread.setReg; split <;> rfl
@[simp] theorem Thread.setReg_dmaLvl1 (x : Thread) (r : Nat) (w : TWord) : (x.setReg r w).dmaLvl1 = x.dmaLvl1 := by unfold Thread.setReg; split <;> rfl
@[simp] theorem Thread.setReg_notices (x : Thread) (r : Nat) (w : TWord) : (x.setReg r w).notices = x.notices := by unfold Thread.setReg; split <;> rfl
@[simp] theorem Thread.setReg_shadow (x : Thread) (r : Nat) (w : TWord) : (x.setReg r w).shadow = x.shadow := by unfold Thread.setReg; split <;> rfl
@[simp] theorem Thread.setReg_slot (x : Thread) (r : Nat) (w : TWord) : (x.setReg r w).slot = x.slot := by unfold Thread.setReg; split <;> rfl
@[simp] theorem Thread.setReg_bmov (x : Thread) (r : Nat) (w : TWord) : (x.setReg r w).bmov = x.bmov := by unfold Thread.setReg; split <;> rfl
@[simp] theorem Thread.setReg_haltPend (x : Thread) (r : Nat) (w : TWord) : (x.setReg r w).haltPend = x.haltPend := by unfold Thread.setReg; split <;> rfl
@[simp] theorem Thread.setReg_tmrEn (x : Thread) (r : Nat) (w : TWord) : (x.setReg r w).tmrEn = x.tmrEn := by unfold Thread.setReg; split <;> rfl
@[simp] theorem Thread.setReg_tmrTick (x : Thread) (r : Nat) (w : TWord) : (x.setReg r w).tmrTick = x.tmrTick := by unfold Thread.setReg; split <;> rfl
@[simp] theorem Thread.setReg_pw (x : Thread) (r : Nat) (w : TWord) : (x.setReg r w).pw = x.pw := by unfold Thread.setReg; split <;> rfl
@[simp] theorem Thread.setReg_pdone (x : Thread) (r : Nat) (w : TWord) : (x.setReg r w).pdone = x.pdone := by unfold Thread.setReg; split <;> rfl

/-! ### Thread.count -/

@[simp] theorem Thread.count_place (x : Thread) : (x.count).place = x.place := rfl
@[simp] theorem Thread.count_regs (x : Thread) : (x.count).regs = x.regs := rfl
@[simp] theorem Thread.count_pc (x : Thread) : (x.count).pc = x.pc := rfl
@[simp] theorem Thread.count_ls0 (x : Thread) : (x.count).ls0 = x.ls0 := rfl
@[simp] theorem Thread.count_le0 (x : Thread) : (x.count).le0 = x.le0 := rfl
@[simp] theorem Thread.count_lc0 (x : Thread) : (x.count).lc0 = x.lc0 := rfl
@[simp] theorem Thread.count_ls1 (x : Thread) : (x.count).ls1 = x.ls1 := rfl
@[simp] theorem Thread.count_le1 (x : Thread) : (x.count).le1 = x.le1 := rfl
@[simp] theorem Thread.count_lc1 (x : Thread) : (x.count).lc1 = x.lc1 := rfl
@[simp] theorem Thread.count_fsr (x : Thread) : (x.count).fsr = x.fsr := rfl
@[simp] theorem Thread.count_smode (x : Thread) : (x.count).smode = x.smode := rfl
@[simp] theorem Thread.count_st (x : Thread) : (x.count).st = x.st := rfl
@[simp] theorem Thread.count_prior (x : Thread) : (x.count).prior = x.prior := rfl
@[simp] theorem Thread.count_wcause (x : Thread) : (x.count).wcause = x.wcause := rfl
@[simp] theorem Thread.count_waitOp (x : Thread) : (x.count).waitOp = x.waitOp := rfl
@[simp] theorem Thread.count_parkedByBit (x : Thread) : (x.count).parkedByBit = x.parkedByBit := rfl
@[simp] theorem Thread.count_msg (x : Thread) : (x.count).msg = x.msg := rfl
@[simp] theorem Thread.count_entry (x : Thread) : (x.count).entry = x.entry := rfl
@[simp] theorem Thread.count_startS (x : Thread) : (x.count).startS = x.startS := rfl
@[simp] theorem Thread.count_disp (x : Thread) : (x.count).disp = x.disp := rfl
@[simp] theorem Thread.count_wsteps (x : Thread) : (x.count).wsteps = x.wsteps := rfl
@[simp] theorem Thread.count_xra (x : Thread) : (x.count).xra = x.xra := rfl
@[simp] theorem Thread.count_dfh (x : Thread) : (x.count).dfh = x.dfh := rfl
@[simp] theorem Thread.count_arm (x : Thread) : (x.count).arm = x.arm := rfl
@[simp] theorem Thread.count_ml (x : Thread) : (x.count).ml = x.ml := rfl
@[simp] theorem Thread.count_pml (x : Thread) : (x.count).pml = x.pml := rfl
@[simp] theorem Thread.count_pmode (x : Thread) : (x.count).pmode = x.pmode := rfl
@[simp] theorem Thread.count_ds (x : Thread) : (x.count).ds = x.ds := rfl
@[simp] theorem Thread.count_xcause (x : Thread) : (x.count).xcause = x.xcause := rfl
@[simp] theorem Thread.count_xaddr (x : Thread) : (x.count).xaddr = x.xaddr := rfl
@[simp] theorem Thread.count_dra (x : Thread) : (x.count).dra = x.dra := rfl
@[simp] theorem Thread.count_dparm (x : Thread) : (x.count).dparm = x.dparm := rfl
@[simp] theorem Thread.count_dpml (x : Thread) : (x.count).dpml = x.dpml := rfl
@[simp] theorem Thread.count_dpmode (x : Thread) : (x.count).dpmode = x.dpmode := rfl
@[simp] theorem Thread.count_dds (x : Thread) : (x.count).dds = x.dds := rfl
@[simp] theorem Thread.count_xpend (x : Thread) : (x.count).xpend = x.xpend := rfl
@[simp] theorem Thread.count_tmrl (x : Thread) : (x.count).tmrl = x.tmrl := rfl
@[simp] theorem Thread.count_swil (x : Thread) : (x.count).swil = x.swil := rfl
@[simp] theorem Thread.count_ccl (x : Thread) : (x.count).ccl = x.ccl := rfl
@[simp] theorem Thread.count_wdtEn (x : Thread) : (x.count).wdtEn = x.wdtEn := rfl
@[simp] theorem Thread.count_wdtInt (x : Thread) : (x.count).wdtInt = x.wdtInt := rfl
@[simp] theorem Thread.count_wdtFrom (x : Thread) : (x.count).wdtFrom = x.wdtFrom := rfl
@[simp] theorem Thread.count_wdtFired (x : Thread) : (x.count).wdtFired = x.wdtFired := rfl
@[simp] theorem Thread.count_dmaLvl0 (x : Thread) : (x.count).dmaLvl0 = x.dmaLvl0 := rfl
@[simp] theorem Thread.count_dmaLvl1 (x : Thread) : (x.count).dmaLvl1 = x.dmaLvl1 := rfl
@[simp] theorem Thread.count_notices (x : Thread) : (x.count).notices = x.notices := rfl
@[simp] theorem Thread.count_shadow (x : Thread) : (x.count).shadow = x.shadow := rfl
@[simp] theorem Thread.count_slot (x : Thread) : (x.count).slot = x.slot := rfl
@[simp] theorem Thread.count_bmov (x : Thread) : (x.count).bmov = x.bmov := rfl
@[simp] theorem Thread.count_haltPend (x : Thread) : (x.count).haltPend = x.haltPend := rfl
@[simp] theorem Thread.count_tmrEn (x : Thread) : (x.count).tmrEn = x.tmrEn := rfl
@[simp] theorem Thread.count_tmrTick (x : Thread) : (x.count).tmrTick = x.tmrTick := rfl
@[simp] theorem Thread.count_pw (x : Thread) : (x.count).pw = x.pw := rfl
@[simp] theorem Thread.count_pdone (x : Thread) : (x.count).pdone = x.pdone := rfl

/-! ### Thread.orFlags -/

@[simp] theorem Thread.orFlags_place (x : Thread) (f : Flags) : (x.orFlags f).place = x.place := rfl
@[simp] theorem Thread.orFlags_regs (x : Thread) (f : Flags) : (x.orFlags f).regs = x.regs := rfl
@[simp] theorem Thread.orFlags_pc (x : Thread) (f : Flags) : (x.orFlags f).pc = x.pc := rfl
@[simp] theorem Thread.orFlags_ls0 (x : Thread) (f : Flags) : (x.orFlags f).ls0 = x.ls0 := rfl
@[simp] theorem Thread.orFlags_le0 (x : Thread) (f : Flags) : (x.orFlags f).le0 = x.le0 := rfl
@[simp] theorem Thread.orFlags_lc0 (x : Thread) (f : Flags) : (x.orFlags f).lc0 = x.lc0 := rfl
@[simp] theorem Thread.orFlags_ls1 (x : Thread) (f : Flags) : (x.orFlags f).ls1 = x.ls1 := rfl
@[simp] theorem Thread.orFlags_le1 (x : Thread) (f : Flags) : (x.orFlags f).le1 = x.le1 := rfl
@[simp] theorem Thread.orFlags_lc1 (x : Thread) (f : Flags) : (x.orFlags f).lc1 = x.lc1 := rfl
@[simp] theorem Thread.orFlags_smode (x : Thread) (f : Flags) : (x.orFlags f).smode = x.smode := rfl
@[simp] theorem Thread.orFlags_st (x : Thread) (f : Flags) : (x.orFlags f).st = x.st := rfl
@[simp] theorem Thread.orFlags_prior (x : Thread) (f : Flags) : (x.orFlags f).prior = x.prior := rfl
@[simp] theorem Thread.orFlags_wcause (x : Thread) (f : Flags) : (x.orFlags f).wcause = x.wcause := rfl
@[simp] theorem Thread.orFlags_waitOp (x : Thread) (f : Flags) : (x.orFlags f).waitOp = x.waitOp := rfl
@[simp] theorem Thread.orFlags_parkedByBit (x : Thread) (f : Flags) : (x.orFlags f).parkedByBit = x.parkedByBit := rfl
@[simp] theorem Thread.orFlags_msg (x : Thread) (f : Flags) : (x.orFlags f).msg = x.msg := rfl
@[simp] theorem Thread.orFlags_entry (x : Thread) (f : Flags) : (x.orFlags f).entry = x.entry := rfl
@[simp] theorem Thread.orFlags_startS (x : Thread) (f : Flags) : (x.orFlags f).startS = x.startS := rfl
@[simp] theorem Thread.orFlags_disp (x : Thread) (f : Flags) : (x.orFlags f).disp = x.disp := rfl
@[simp] theorem Thread.orFlags_icount (x : Thread) (f : Flags) : (x.orFlags f).icount = x.icount := rfl
@[simp] theorem Thread.orFlags_wsteps (x : Thread) (f : Flags) : (x.orFlags f).wsteps = x.wsteps := rfl
@[simp] theorem Thread.orFlags_xra (x : Thread) (f : Flags) : (x.orFlags f).xra = x.xra := rfl
@[simp] theorem Thread.orFlags_dfh (x : Thread) (f : Flags) : (x.orFlags f).dfh = x.dfh := rfl
@[simp] theorem Thread.orFlags_arm (x : Thread) (f : Flags) : (x.orFlags f).arm = x.arm := rfl
@[simp] theorem Thread.orFlags_ml (x : Thread) (f : Flags) : (x.orFlags f).ml = x.ml := rfl
@[simp] theorem Thread.orFlags_pml (x : Thread) (f : Flags) : (x.orFlags f).pml = x.pml := rfl
@[simp] theorem Thread.orFlags_pmode (x : Thread) (f : Flags) : (x.orFlags f).pmode = x.pmode := rfl
@[simp] theorem Thread.orFlags_ds (x : Thread) (f : Flags) : (x.orFlags f).ds = x.ds := rfl
@[simp] theorem Thread.orFlags_xcause (x : Thread) (f : Flags) : (x.orFlags f).xcause = x.xcause := rfl
@[simp] theorem Thread.orFlags_xaddr (x : Thread) (f : Flags) : (x.orFlags f).xaddr = x.xaddr := rfl
@[simp] theorem Thread.orFlags_dra (x : Thread) (f : Flags) : (x.orFlags f).dra = x.dra := rfl
@[simp] theorem Thread.orFlags_dparm (x : Thread) (f : Flags) : (x.orFlags f).dparm = x.dparm := rfl
@[simp] theorem Thread.orFlags_dpml (x : Thread) (f : Flags) : (x.orFlags f).dpml = x.dpml := rfl
@[simp] theorem Thread.orFlags_dpmode (x : Thread) (f : Flags) : (x.orFlags f).dpmode = x.dpmode := rfl
@[simp] theorem Thread.orFlags_dds (x : Thread) (f : Flags) : (x.orFlags f).dds = x.dds := rfl
@[simp] theorem Thread.orFlags_xpend (x : Thread) (f : Flags) : (x.orFlags f).xpend = x.xpend := rfl
@[simp] theorem Thread.orFlags_tmrl (x : Thread) (f : Flags) : (x.orFlags f).tmrl = x.tmrl := rfl
@[simp] theorem Thread.orFlags_swil (x : Thread) (f : Flags) : (x.orFlags f).swil = x.swil := rfl
@[simp] theorem Thread.orFlags_ccl (x : Thread) (f : Flags) : (x.orFlags f).ccl = x.ccl := rfl
@[simp] theorem Thread.orFlags_wdtEn (x : Thread) (f : Flags) : (x.orFlags f).wdtEn = x.wdtEn := rfl
@[simp] theorem Thread.orFlags_wdtInt (x : Thread) (f : Flags) : (x.orFlags f).wdtInt = x.wdtInt := rfl
@[simp] theorem Thread.orFlags_wdtFrom (x : Thread) (f : Flags) : (x.orFlags f).wdtFrom = x.wdtFrom := rfl
@[simp] theorem Thread.orFlags_wdtFired (x : Thread) (f : Flags) : (x.orFlags f).wdtFired = x.wdtFired := rfl
@[simp] theorem Thread.orFlags_dmaLvl0 (x : Thread) (f : Flags) : (x.orFlags f).dmaLvl0 = x.dmaLvl0 := rfl
@[simp] theorem Thread.orFlags_dmaLvl1 (x : Thread) (f : Flags) : (x.orFlags f).dmaLvl1 = x.dmaLvl1 := rfl
@[simp] theorem Thread.orFlags_notices (x : Thread) (f : Flags) : (x.orFlags f).notices = x.notices := rfl
@[simp] theorem Thread.orFlags_shadow (x : Thread) (f : Flags) : (x.orFlags f).shadow = x.shadow := rfl
@[simp] theorem Thread.orFlags_slot (x : Thread) (f : Flags) : (x.orFlags f).slot = x.slot := rfl
@[simp] theorem Thread.orFlags_bmov (x : Thread) (f : Flags) : (x.orFlags f).bmov = x.bmov := rfl
@[simp] theorem Thread.orFlags_haltPend (x : Thread) (f : Flags) : (x.orFlags f).haltPend = x.haltPend := rfl
@[simp] theorem Thread.orFlags_tmrEn (x : Thread) (f : Flags) : (x.orFlags f).tmrEn = x.tmrEn := rfl
@[simp] theorem Thread.orFlags_tmrTick (x : Thread) (f : Flags) : (x.orFlags f).tmrTick = x.tmrTick := rfl
@[simp] theorem Thread.orFlags_pw (x : Thread) (f : Flags) : (x.orFlags f).pw = x.pw := rfl
@[simp] theorem Thread.orFlags_pdone (x : Thread) (f : Flags) : (x.orFlags f).pdone = x.pdone := rfl

/-! ### State.setHif, State.setHalf -/

@[simp] theorem State.setHif_pending (x : State) (h : Hif) : (x.setHif h).pending = x.pending := rfl
@[simp] theorem State.setHalf_pending (x : State) (e : Bool) (h : Half) : (x.setHalf e h).pending = x.pending := rfl
@[simp] theorem State.setHif_tb (x : State) (h : Hif) : (x.setHif h).tb = x.tb := rfl
@[simp] theorem State.setHalf_tb (x : State) (e : Bool) (h : Half) : (x.setHalf e h).tb = x.tb := rfl
@[simp] theorem State.setHif_chipId (x : State) (h : Hif) : (x.setHif h).chipId = x.chipId := rfl
@[simp] theorem State.setHalf_chipId (x : State) (e : Bool) (h : Half) : (x.setHalf e h).chipId = x.chipId := rfl
@[simp] theorem State.setHif_chipLock (x : State) (h : Hif) : (x.setHif h).chipLock = x.chipLock := rfl
@[simp] theorem State.setHalf_chipLock (x : State) (e : Bool) (h : Half) : (x.setHalf e h).chipLock = x.chipLock := rfl
@[simp] theorem State.setHif_crt (x : State) (h : Hif) : (x.setHif h).crt = x.crt := rfl
@[simp] theorem State.setHalf_crt (x : State) (e : Bool) (h : Half) : (x.setHalf e h).crt = x.crt := rfl
@[simp] theorem State.setHif_cores (x : State) (h : Hif) : (x.setHif h).cores = x.cores := rfl
@[simp] theorem State.setHalf_cores (x : State) (e : Bool) (h : Half) : (x.setHalf e h).cores = x.cores := rfl
@[simp] theorem State.setHif_cls (x : State) (h : Hif) : (x.setHif h).cls = x.cls := rfl
@[simp] theorem State.setHalf_cls (x : State) (e : Bool) (h : Half) : (x.setHalf e h).cls = x.cls := rfl
@[simp] theorem State.setHif_routers (x : State) (h : Hif) : (x.setHif h).routers = x.routers := rfl
@[simp] theorem State.setHalf_routers (x : State) (e : Bool) (h : Half) : (x.setHalf e h).routers = x.routers := rfl
@[simp] theorem State.setHif_wires (x : State) (h : Hif) : (x.setHif h).wires = x.wires := rfl
@[simp] theorem State.setHalf_wires (x : State) (e : Bool) (h : Half) : (x.setHalf e h).wires = x.wires := rfl
@[simp] theorem State.setHif_svc (x : State) (h : Hif) : (x.setHif h).svc = x.svc := rfl
@[simp] theorem State.setHalf_svc (x : State) (e : Bool) (h : Half) : (x.setHalf e h).svc = x.svc := rfl
@[simp] theorem State.setHif_blx (x : State) (h : Hif) : (x.setHif h).blx = x.blx := rfl
@[simp] theorem State.setHalf_blx (x : State) (e : Bool) (h : Half) : (x.setHalf e h).blx = x.blx := rfl
@[simp] theorem State.setHif_hbm (x : State) (h : Hif) : (x.setHif h).hbm = x.hbm := rfl
@[simp] theorem State.setHalf_hbm (x : State) (e : Bool) (h : Half) : (x.setHalf e h).hbm = x.hbm := rfl
@[simp] theorem State.setHif_regions (x : State) (h : Hif) : (x.setHif h).regions = x.regions := rfl
@[simp] theorem State.setHalf_regions (x : State) (e : Bool) (h : Half) : (x.setHalf e h).regions = x.regions := rfl
@[simp] theorem State.setHif_lnk (x : State) (h : Hif) : (x.setHif h).lnk = x.lnk := rfl
@[simp] theorem State.setHalf_lnk (x : State) (e : Bool) (h : Half) : (x.setHalf e h).lnk = x.lnk := rfl
@[simp] theorem State.setHif_tbr (x : State) (h : Hif) : (x.setHif h).tbr = x.tbr := rfl
@[simp] theorem State.setHalf_tbr (x : State) (e : Bool) (h : Half) : (x.setHalf e h).tbr = x.tbr := rfl
@[simp] theorem State.setHif_hif (x : State) (h : Hif) : (x.setHif h).hif = h := rfl
@[simp] theorem State.setHalf_hif (x : State) (e : Bool) (h : Half) : (x.setHalf e h).hif = x.hif := rfl
@[simp] theorem State.setHif_job (x : State) (h : Hif) : (x.setHif h).job = x.job := rfl
@[simp] theorem State.setHalf_job (x : State) (e : Bool) (h : Half) : (x.setHalf e h).job = x.job := rfl
@[simp] theorem State.setHif_brg (x : State) (h : Hif) : (x.setHif h).brg = x.brg := rfl
@[simp] theorem State.setHalf_brg (x : State) (e : Bool) (h : Half) : (x.setHalf e h).brg = x.brg := rfl
@[simp] theorem State.setHif_sec (x : State) (h : Hif) : (x.setHif h).sec = x.sec := rfl
@[simp] theorem State.setHalf_sec (x : State) (e : Bool) (h : Half) : (x.setHalf e h).sec = x.sec := rfl
@[simp] theorem State.setHif_pwr (x : State) (h : Hif) : (x.setHif h).pwr = x.pwr := rfl
@[simp] theorem State.setHif_errs (x : State) (h : Hif) : (x.setHif h).errs = x.errs := rfl
@[simp] theorem State.setHalf_errs (x : State) (e : Bool) (h : Half) : (x.setHalf e h).errs = x.errs := rfl
@[simp] theorem State.setHif_mc (x : State) (h : Hif) : (x.setHif h).mc = x.mc := rfl
@[simp] theorem State.setHalf_mc (x : State) (e : Bool) (h : Half) : (x.setHalf e h).mc = x.mc := rfl
@[simp] theorem State.setHif_mbx (x : State) (h : Hif) : (x.setHif h).mbx = x.mbx := rfl
@[simp] theorem State.setHalf_mbx (x : State) (e : Bool) (h : Half) : (x.setHalf e h).mbx = x.mbx := rfl
@[simp] theorem State.setHif_tel (x : State) (h : Hif) : (x.setHif h).tel = x.tel := rfl
@[simp] theorem State.setHalf_tel (x : State) (e : Bool) (h : Half) : (x.setHalf e h).tel = x.tel := rfl
@[simp] theorem State.setHif_fuses (x : State) (h : Hif) : (x.setHif h).fuses = x.fuses := rfl
@[simp] theorem State.setHalf_fuses (x : State) (e : Bool) (h : Half) : (x.setHalf e h).fuses = x.fuses := rfl
@[simp] theorem State.setHif_nor (x : State) (h : Hif) : (x.setHif h).nor = x.nor := rfl
@[simp] theorem State.setHalf_nor (x : State) (e : Bool) (h : Half) : (x.setHalf e h).nor = x.nor := rfl
@[simp] theorem State.setHif_pins (x : State) (h : Hif) : (x.setHif h).pins = x.pins := rfl
@[simp] theorem State.setHalf_pins (x : State) (e : Bool) (h : Half) : (x.setHalf e h).pins = x.pins := rfl

/-! ### What an update sets -/

@[simp] theorem Thread.count_icount (x : Thread) : x.count.icount = x.icount + 1 := rfl
@[simp] theorem Thread.orFlags_fsr (x : Thread) (f : Flags) : (x.orFlags f).fsr = x.fsr ||| f.setWidth 13 := rfl
@[simp] theorem State.setCore_cores (x : State) (n : Nat) (y : Core) : (x.setCore n y).cores = mset x.cores n y := rfl
@[simp] theorem State.setPort_lnk (x : State) (n : Nat) (y : Lnk) : (x.setPort n y).lnk = mset x.lnk n y := rfl
@[simp] theorem State.setStk_hbm (x : State) (n : Nat) (y : Hbm) : (x.setStk n y).hbm = mset x.hbm n y := rfl
@[simp] theorem State.setRouter_routers (x : State) (n : Nat) (y : Router) : (x.setRouter n y).routers = mset x.routers n y := rfl
@[simp] theorem State.setRegion_regions (x : State) (n : Nat) (y : Region) : (x.setRegion n y).regions = mset x.regions n y := rfl
@[simp] theorem State.setLine_blx (x : State) (n : Nat) (y : Blx) : (x.setLine n y).blx = mset x.blx n y := rfl
@[simp] theorem State.setCl_cls (x : State) (n : Nat) (y : EnFsm) : (x.setCl n y).cls = mset x.cls n y := rfl
@[simp] theorem Core.setThread_thr (x : Core) (n : Nat) (y : Thread) : (x.setThread n y).thr = mset x.thr n y := rfl

end Sys2Proof.Machine
end

