-- ==== Sys2Proof/Laws/Tables.lean ====
section
/-! SUPPORT. The laws of sparse tables: reading after writing, and the canonical form that every write keeps. -/

namespace Sys2Proof.Machine

variable {α : Type}

@[simp] theorem mget_nil (d : α) (i : Nat) : mget d [] i = d := rfl

/-- Reading the key just written gives the value written. -/
@[simp] theorem mget_mset_same (d : α) (m : List (Nat × α)) (i : Nat) (x : α) : mget d (mset m i x) i = x := by
  induction m with
  | nil => simp [mset, mget]
  | cons p r ih =>
    obtain ⟨k, v⟩ := p
    unfold mset
    split
    · simp [mget]
    · split
      · simp [mget]
      · simp [mget, *]

/-- Reading any other key gives what it gave before. -/
theorem mget_mset_ne (d : α) (m : List (Nat × α)) (i j : Nat) (x : α) (h : j ≠ i) :
    mget d (mset m i x) j = mget d m j := by
  induction m with
  | nil => simp [mset, mget, h.symm]
  | cons p r ih =>
    obtain ⟨k, v⟩ := p
    unfold mset
    split
    · simp [mget, h.symm]
    · split
      · subst_vars; simp [mget, h.symm]
      · simp [mget, ih]

theorem mget_mset (d : α) (m : List (Nat × α)) (i j : Nat) (x : α) :
    mget d (mset m i x) j = if j = i then x else mget d m j := by
  split
  · subst_vars; simp
  · exact mget_mset_ne d m i j x ‹_›

/-- Writing a key twice is writing it once. -/
@[simp] theorem mset_mset (m : List (Nat × α)) (i : Nat) (x y : α) : mset (mset m i x) i y = mset m i y := by
  induction m with
  | nil => simp [mset]
  | cons p r ih =>
    obtain ⟨k, v⟩ := p
    by_cases h1 : i < k
    · simp [mset, h1]
    · by_cases h2 : k = i
      · simp [mset, h2]
      · simp [mset, h1, h2, ih]

theorem mget_mdel_ne (d : α) (m : List (Nat × α)) (i j : Nat) (h : j ≠ i) : mget d (mdel m i) j = mget d m j := by
  induction m with
  | nil => rfl
  | cons p r ih =>
    obtain ⟨k, v⟩ := p
    unfold mdel
    split
    · subst_vars; simp [mget, h.symm]
    · simp [mget, ih]

/-! ## Rising keys -/

theorem keysAbove_mono {m : List (Nat × α)} : ∀ {a b : Nat}, a ≤ b → keysAbove b m = true → keysAbove a m = true := by
  intro a b h hb
  cases m with
  | nil => rfl
  | cons p r =>
    simp only [keysAbove, Bool.and_eq_true, decide_eq_true_eq] at hb ⊢
    exact ⟨Nat.le_trans h hb.1, hb.2⟩

/-- A key below every key of a table reads as the default. -/
theorem mget_below (d : α) : ∀ (m : List (Nat × α)) (b i : Nat), keysAbove b m = true → i < b → mget d m i = d := by
  intro m
  induction m with
  | nil => intros; rfl
  | cons p r ih =>
    obtain ⟨k, v⟩ := p
    intro b i h hi
    simp only [keysAbove, Bool.and_eq_true, decide_eq_true_eq] at h
    have : k ≠ i := by omega
    simp only [mget, this, if_false]
    exact ih _ _ h.2 (by omega)

theorem mget_mdel_same (d : α) : ∀ (m : List (Nat × α)) (b i : Nat), keysAbove b m = true → mget d (mdel m i) i = d := by
  intro m
  induction m with
  | nil => intros; rfl
  | cons p r ih =>
    obtain ⟨k, v⟩ := p
    intro b i h
    simp only [keysAbove, Bool.and_eq_true, decide_eq_true_eq] at h
    unfold mdel
    split
    · subst_vars; exact mget_below d r _ _ h.2 (by omega)
    · rename_i hk
      simp only [mget, hk, if_false]
      exact ih _ _ h.2

theorem keysAbove_mset : ∀ (m : List (Nat × α)) (b i : Nat) (x : α), b ≤ i → keysAbove b m = true → keysAbove b (mset m i x) = true := by
  intro m
  induction m with
  | nil => intro b i x hb _; simp [mset, keysAbove, hb]
  | cons p r ih =>
    obtain ⟨k, v⟩ := p
    intro b i x hb h
    simp only [keysAbove, Bool.and_eq_true, decide_eq_true_eq] at h
    unfold mset
    split
    · rename_i hik
      simp only [keysAbove, Bool.and_eq_true, decide_eq_true_eq]
      exact ⟨hb, hik, h.2⟩
    · split
      · subst_vars; simp [keysAbove, hb, h.2]
      · simp only [keysAbove, Bool.and_eq_true, decide_eq_true_eq]
        exact ⟨h.1, ih _ _ _ (by omega) h.2⟩

theorem keysAbove_mdel : ∀ (m : List (Nat × α)) (b i : Nat), keysAbove b m = true → keysAbove b (mdel m i) = true := by
  intro m
  induction m with
  | nil => intros; rfl
  | cons p r ih =>
    obtain ⟨k, v⟩ := p
    intro b i h
    simp only [keysAbove, Bool.and_eq_true, decide_eq_true_eq] at h
    unfold mdel
    split
    · exact keysAbove_mono (by omega) h.2
    · simp only [keysAbove, Bool.and_eq_true, decide_eq_true_eq]
      exact ⟨h.1, ih _ _ h.2⟩

theorem keysAbove_filter (f : Nat × α → Bool) : ∀ (m : List (Nat × α)) (b : Nat), keysAbove b m = true → keysAbove b (m.filter f) = true := by
  intro m
  induction m with
  | nil => intros; rfl
  | cons p r ih =>
    obtain ⟨k, v⟩ := p
    intro b h
    simp only [keysAbove, Bool.and_eq_true, decide_eq_true_eq] at h
    by_cases hf : f (k, v) = true
    · rw [List.filter_cons_of_pos hf]
      simp only [keysAbove, Bool.and_eq_true, decide_eq_true_eq]
      exact ⟨h.1, ih _ h.2⟩
    · rw [List.filter_cons_of_neg hf]
      exact keysAbove_mono (by omega) (ih _ h.2)

/-! ## No entry equal to the default -/

section
variable [DecidableEq α]

theorem noDefault_mset (d : α) : ∀ (m : List (Nat × α)) (i : Nat) (x : α), x ≠ d → noDefault d m = true → noDefault d (mset m i x) = true := by
  intro m
  induction m with
  | nil => intro i x hx _; simp [mset, noDefault, hx]
  | cons p r ih =>
    obtain ⟨k, v⟩ := p
    intro i x hx h
    have h' : v ≠ d ∧ noDefault d r = true := by simpa [noDefault] using h
    unfold mset
    split
    · simp only [noDefault, List.all_cons, Bool.and_eq_true, decide_eq_true_eq]; exact ⟨hx, h'.1, h'.2⟩
    · split
      · simp only [noDefault, List.all_cons, Bool.and_eq_true, decide_eq_true_eq]; exact ⟨hx, h'.2⟩
      · simp only [noDefault, List.all_cons, Bool.and_eq_true, decide_eq_true_eq]; exact ⟨h'.1, ih _ _ hx h'.2⟩

theorem noDefault_mdel (d : α) : ∀ (m : List (Nat × α)) (i : Nat), noDefault d m = true → noDefault d (mdel m i) = true := by
  intro m
  induction m with
  | nil => intros; rfl
  | cons p r ih =>
    obtain ⟨k, v⟩ := p
    intro i h
    have h' : v ≠ d ∧ noDefault d r = true := by simpa [noDefault] using h
    unfold mdel
    split
    · exact h'.2
    · simp only [noDefault, List.all_cons, Bool.and_eq_true, decide_eq_true_eq]; exact ⟨h'.1, ih _ h'.2⟩

theorem noDefault_filter (d : α) (f : Nat × α → Bool) (m : List (Nat × α)) (h : noDefault d m = true) : noDefault d (m.filter f) = true := by
  simp only [noDefault, List.all_eq_true] at h ⊢
  intro e he
  exact h e (List.mem_filter.1 he).1

/-- Reading after a canonical write: the value written. -/
theorem mget_cset_same (d : α) (m : List (Nat × α)) (b i : Nat) (x : α) (h : keysAbove b m = true) : mget d (cset d m i x) i = x := by
  unfold cset
  split
  · subst_vars; exact mget_mdel_same _ m b i h
  · simp

/-- A canonical write leaves every other key alone. -/
theorem mget_cset_ne (d : α) (m : List (Nat × α)) (i j : Nat) (x : α) (h : j ≠ i) : mget d (cset d m i x) j = mget d m j := by
  unfold cset
  split
  · exact mget_mdel_ne d m i j h
  · exact mget_mset_ne d m i j x h

end

end Sys2Proof.Machine
end

