-- ==== Sys2Proof/Laws/Issue.lean ====
section
/-! SUPPORT. What issuing an instruction word can do, said once: it completes, waits, branches or faults as its own part answers. -/

namespace Sys2Proof.Machine

/-! ## Units of the chip after an update -/

@[simp] theorem State.coreAt_setCore (s : State) (l : Nat) (k : Core) : (s.setCore l k).coreAt l = k := by
  simp [State.coreAt]

theorem State.coreAt_setCore_ne (s : State) (l m : Nat) (k : Core) (h : m ≠ l) : (s.setCore l k).coreAt m = s.coreAt m := by
  simp [State.coreAt, mget_mset_ne _ _ _ _ _ h]

@[simp] theorem State.setCore_setCore (s : State) (l : Nat) (k q : Core) : (s.setCore l k).setCore l q = s.setCore l q := by
  simp [State.setCore]

@[simp] theorem Core.thread_setThread (k : Core) (t : Nat) (th : Thread) : (k.setThread t th).thread t = th := by
  simp [Core.thread]

theorem Core.thread_setThread_ne (k : Core) (t u : Nat) (th : Thread) (h : u ≠ t) : (k.setThread t th).thread u = k.thread u := by
  simp [Core.thread, mget_mset_ne _ _ _ _ _ h]

@[simp] theorem Core.thread_updThread (k : Core) (t : Nat) (f : Thread → Thread) : (k.updThread t f).thread t = f (k.thread t) := by
  simp [Core.updThread]

theorem Core.thread_updThread_ne (k : Core) (t u : Nat) (f : Thread → Thread) (h : u ≠ t) : (k.updThread t f).thread u = k.thread u := by
  simp [Core.updThread, Core.thread_setThread_ne _ _ _ _ h]

@[simp] theorem Core.setThread_setThread (k : Core) (t : Nat) (a b : Thread) : (k.setThread t a).setThread t b = k.setThread t b := by
  simp [Core.setThread]

theorem Core.updThread_updThread (k : Core) (t : Nat) (f g : Thread → Thread) :
    (k.updThread t f).updThread t g = k.updThread t fun th => g (f th) := by
  simp [Core.updThread]

/-! ## Registers -/

theorem Thread.reg_zero (th : Thread) : th.reg 0 = tint 0 := rfl

theorem Thread.reg_setReg_same (th : Thread) (r : Nat) (w : TWord) (h : r ≠ 0) : (th.setReg r w).reg r = w := by
  simp [Thread.reg, Thread.setReg, h]

theorem Thread.reg_setReg_ne (th : Thread) (r q : Nat) (w : TWord) (h : q ≠ r) : (th.setReg r w).reg q = th.reg q := by
  unfold Thread.reg Thread.setReg
  split
  · rfl
  · split
    · rfl
    · exact mget_mset_ne _ _ _ _ _ h

theorem Thread.setReg_zero (th : Thread) (w : TWord) : th.setReg 0 w = th := rfl

/-! ## The checks before issue -/

theorem MayIssue.canIssue {s : State} {c : CoreId} {t : Thr} {i : IssueInfo} (h : MayIssue s c t i) :
    (s.coreAt c.val).canIssue (s.env c.val) t.val = true := by
  simp [Core.canIssue, h.live, h.enabled, h.run, h.noBmov]

theorem MayIssue.precheck {s : State} {c : CoreId} {t : Thr} {i : IssueInfo} (h : MayIssue s c t i) :
    precheck (s.coreAt c.val) ((s.coreAt c.val).thread t.val) i = none := by
  have h1 : (i.noSlot && ((s.coreAt c.val).thread t.val).slot.isSome) = false := by
    cases hs : i.noSlot
    · rfl
    · simp [h.slot hs]
  have h2 : (if i.loopEnd then loopAt ((s.coreAt c.val).thread t.val) ((s.coreAt c.val).thread t.val).pc else none) = none := by
    split
    · exact h.loops ‹_›
    · rfl
  have h3 : (if i.branch then loopAt ((s.coreAt c.val).thread t.val) (pcNext ((s.coreAt c.val).thread t.val).pc) else none) = none := by
    split
    · exact h.slotEnd ‹_›
    · rfl
  have h5 : (i.priv && !((s.coreAt c.val).thread t.val).smode) = false := by
    cases hp : i.priv
    · rfl
    · simp [h.mode hp]
  simp only [Machine.precheck, h.fetch, h.clean, h.legal, h.word, h1, h2, h3, h5, Bool.not_true, Bool.or_self, Bool.false_eq_true, if_false]
  split
  · rename_i r hr
    split at hr
    · rename_i he
      split at hr
      · rename_i hm
        exact absurd hm.2 (h.keeps _ _ he rfl hm.1)
      · exact absurd hr (by simp)
    · exact absurd hr (by simp)
  · rfl

/-! ## The outcome of an instruction word -/

/-- A word that may issue runs its own part. -/
theorem State.word_runs {s : State} {c : CoreId} {t : Thr} {i : Env → Thread → IssueInfo} {b : Body}
    (h : MayIssue s c t (i (s.env c.val) ((s.coreAt c.val).thread t.val))) :
    s.word c t i b = .next (s.onCore c.val fun e k => runBody e k t.val false b) := by
  simp only [State.word, State.onCore, issue, issueDue, h.canIssue, h.precheck, if_true]

/-- Its own part completes with the next in sequence to follow and sends `em`. -/
theorem State.word_seq {s : State} {c : CoreId} {t : Thr} {i : Env → Thread → IssueInfo} {b : Body} {k' : Core} {em : List Emit}
    (h : MayIssue s c t (i (s.env c.val) ((s.coreAt c.val).thread t.val)))
    (hb : b (s.env c.val) (s.coreAt c.val) t.val = .ok (k', .seq, em)) :
    s.word c t i b = .next ((s.setCore c.val (k'.retire t.val)).applyEmits c.val em) := by
  rw [State.word_runs h]
  simp only [State.onCore, runBody, hb, ctlIssued, finish, Core.retire, List.append_nil, Bool.not_true, Bool.or_self,
    Bool.false_eq_true, if_false]
  rfl

/-- Its own part changes the core by k', sends nothing, and completes. -/
theorem State.word_retires {s : State} {c : CoreId} {t : Thr} {i : Env → Thread → IssueInfo} {b : Body} {f : Core → Core}
    (h : MayIssue s c t (i (s.env c.val) ((s.coreAt c.val).thread t.val)))
    (hb : b (s.env c.val) (s.coreAt c.val) t.val = .ok (f (s.coreAt c.val), .seq, [])) :
    s.word c t i b = .next (s.retired c t f) := by
  rw [State.word_seq h hb]; rfl

/-- Its own part faults. -/
theorem State.word_faults {s : State} {c : CoreId} {t : Thr} {i : Env → Thread → IssueInfo} {b : Body} {ev : Ev}
    (h : MayIssue s c t (i (s.env c.val) ((s.coreAt c.val).thread t.val)))
    (hb : b (s.env c.val) (s.coreAt c.val) t.val = .error ev) :
    s.word c t i b = .next (s.faulted c t ev) := by
  rw [State.word_runs h]
  simp [State.onCore, runBody, hb, State.faulted]

/-- An instruction whose own part only writes rd. -/
theorem State.word_writes {s : State} {c : CoreId} {t : Thr} {i : Env → Thread → IssueInfo} {rd : Reg} {g : Thread → Except Ev TWord} {w : TWord}
    (h : MayIssue s c t (i (s.env c.val) ((s.coreAt c.val).thread t.val)))
    (hg : g (s.thrOf c t) = .ok w) :
    s.word c t i (writeReg rd.val g) = .next (s.wrote c t rd w) := by
  refine State.word_retires (f := fun k => k.setReg t.val rd.val w) h ?_
  simp only [State.thrOf] at hg
  simp [writeReg, hg]

end Sys2Proof.Machine
end

