-- ==== Sys2Proof/Laws/Memory.lean ====
section
/-! SUPPORT. The laws of byte memories: every write keeps the canonical form, a read after a write gives the bytes written, and a write leaves every other byte alone. -/

namespace Sys2Proof.Machine

theorem Mem.wf_nil : Mem.wf [] = true := rfl

theorem wrByte_wf (m : Mem) (a : Nat) (b : Byte) (h : m.wf = true) : (wrByte m a b).wf = true := by
  simp only [Mem.wf, Bool.and_eq_true] at h ⊢
  unfold wrByte cset
  split
  · exact ⟨keysAbove_mdel _ _ _ h.1, noDefault_mdel _ _ _ h.2⟩
  · exact ⟨keysAbove_mset _ _ _ _ (Nat.zero_le _) h.1, noDefault_mset _ _ _ _ ‹_› h.2⟩

theorem wrBytes_wf : ∀ (bs : List Byte) (m : Mem) (a : Nat), m.wf = true → (wrBytes m a bs).wf = true
  | [], _, _, h => h
  | b :: r, m, a, h => wrBytes_wf r (wrByte m a b) (a + 1) (wrByte_wf m a b h)

theorem wrNat_wf (m : Mem) (a n v : Nat) (h : m.wf = true) : (wrNat m a n v).wf = true := wrBytes_wf _ _ _ h

theorem Mem.filter_wf (m : Mem) (f : Host.Cell → Bool) (h : m.wf = true) : Mem.wf (m.filter f) = true := by
  simp only [Mem.wf, Bool.and_eq_true] at h ⊢
  exact ⟨keysAbove_filter _ _ _ h.1, noDefault_filter _ _ _ h.2⟩

theorem rdByte_wrByte_same (m : Mem) (a : Nat) (b : Byte) (h : m.wf = true) : rdByte (wrByte m a b) a = b := by
  simp only [Mem.wf, Bool.and_eq_true] at h
  exact mget_cset_same _ m 0 a b h.1

theorem rdByte_wrByte_ne (m : Mem) (a i : Nat) (b : Byte) (h : i ≠ a) : rdByte (wrByte m a b) i = rdByte m i :=
  mget_cset_ne _ m a i b h

theorem rdByte_wrBytes_out : ∀ (bs : List Byte) (m : Mem) (a i : Nat), (i < a ∨ a + bs.length ≤ i) →
    rdByte (wrBytes m a bs) i = rdByte m i
  | [], _, _, _, _ => rfl
  | b :: r, m, a, i, h => by
    simp only [wrBytes, List.length_cons] at h ⊢
    rw [rdByte_wrBytes_out r _ _ _ (by omega), rdByte_wrByte_ne _ _ _ _ (by omega)]

/-- Reading the bytes just written. -/
theorem rdBytes_wrBytes : ∀ (bs : List Byte) (m : Mem) (a : Nat), m.wf = true → rdBytes (wrBytes m a bs) a bs.length = bs
  | [], _, _, _ => rfl
  | b :: r, m, a, h => by
    simp only [wrBytes, List.length_cons, rdBytes]
    rw [rdBytes_wrBytes r _ _ (wrByte_wf _ _ _ h), rdByte_wrBytes_out r _ _ _ (by omega), rdByte_wrByte_same _ _ _ h]

@[simp] theorem leBytes_length : ∀ (n v : Nat), (leBytes n v).length = n
  | 0, _ => rfl
  | n + 1, v => by simp [leBytes, leBytes_length n]

/-- The bytes of a number spell it, modulo what they hold. -/
theorem leNat_leBytes : ∀ (n v : Nat), leNat (leBytes n v) = v % 256 ^ n
  | 0, v => by simp [leBytes, leNat, Nat.mod_one]
  | n + 1, v => by
    rw [leBytes, leNat, leNat_leBytes n, BitVec.toNat_ofNat]
    have h : v % (256 * 256 ^ n) = v % 256 + 256 * (v / 256 % 256 ^ n) := Nat.mod_mul
    rw [show (2 : Nat) ^ 8 = 256 from rfl, show 256 ^ (n + 1) = 256 * 256 ^ n from Nat.pow_succ', h]

/-- Reading the number just stored. -/
theorem rdNat_wrNat (m : Mem) (a n v : Nat) (h : m.wf = true) : rdNat (wrNat m a n v) a n = v % 256 ^ n := by
  have := rdBytes_wrBytes (leBytes n v) m a h
  rw [leBytes_length] at this
  rw [rdNat, wrNat, this, leNat_leBytes]

/-! ## The scratchpad -/

theorem Spad.setWord_wf (s : Spad) (a : Nat) (w : TWord) (h : s.bytes.wf = true) : (s.setWord a w).bytes.wf = true := wrNat_wf _ _ _ _ h
theorem Spad.setPart_wf (s : Spad) (a n v : Nat) (h : s.bytes.wf = true) : (s.setPart a n v).bytes.wf = true := wrNat_wf _ _ _ _ h
@[simp] theorem Spad.setTag_bytes (s : Spad) (a : Nat) (t : Tag) : (s.setTag a t).bytes = s.bytes := rfl

@[simp] theorem Spad.wideTags_bytes (pz : Nat → Bool) : ∀ (n : Nat) (s : Spad) (a : Nat), (s.wideTags a pz n).bytes = s.bytes
  | 0, _, _ => rfl
  | n + 1, s, a => by
    simp only [Spad.wideTags]
    rw [Spad.wideTags_bytes pz n]
    split <;> rfl

theorem Spad.wideWrite_wf (s : Spad) (a : Nat) (bs : List Byte) (pz : Nat → Bool) (h : s.bytes.wf = true) : (s.wideWrite a bs pz).bytes.wf = true := by
  simp only [Spad.wideWrite, Spad.wideTags_bytes]
  exact wrBytes_wf _ _ _ h

end Sys2Proof.Machine
end

