-- ==== Sys2Proof/WellFormed.lean ====
section
/-! DEFINITION. Well-formed commands: what the structured operands must satisfy for the event they name to be one that the spec describes. The operands of the other rows are bounded by their types. -/

namespace Sys2Proof

open Machine

/-- A flit carries 64 bytes, and its kind is one of Table 12-3 (R379). -/
def flitWf (f : Flit) : Bool := decide (f.stream < 1024) && decide (f.kind < 7) && f.data.length == 64

/-- A VL0 cell: one to four flits of one stream, three with a mark, header only first and trailer only last (R460, R462). -/
def vl0Wf (fs : List Flit) : Bool :=
  decide (1 ≤ fs.length ∧ fs.length ≤ 4) && fs.all flitWf && (fs.all (fun f => f.psn == 0) || decide (fs.length ≤ 3))
    && fs.all (fun f => f.stream == ((fs.head?.map Flit.stream).getD 0)) && fs.dropLast.all (fun f => !f.tr) && (fs.drop 1).all fun f => !f.hd

/-- A cell: SEQ and ACK are 7 bits (Table 15-2). -/
def cellWf (c : Cell) : Bool :=
  decide (c.seq < 128) && decide (c.ack < 128) && (match c.body with | .vl0 fs => vl0Wf fs | _ => true)

/-- An urgent unit: a KIND of Table 15-5 and an 8-bit USEQ. -/
def urgentWf (u : Urgent) : Bool := decide (1 ≤ u.kind ∧ u.kind ≤ 8) && decide (u.useq < 256)

/-- How a training ends: lanes 0 to 8, a chip ID and a port. -/
def trainingWf (x : Training) : Bool := x.lanes.all (fun l => decide (l < 9)) && decide (x.peerChip < 4096) && decide (x.peerPort < 8)

/-- What a phase finds: physical cores, sites with 8-bit temperatures, two straps. -/
def phaseWf (x : PhaseEnd) : Bool :=
  decide (x.straps < 4) && x.bist.all (fun p => decide (p < 3456)) && x.temps.all (fun p => decide (p.1 < 6) && decide (p.2 < 256))
    && x.missing.all fun c => decide (c < 4095)

/-- A command of the command ring is 64 bytes (R546). -/
def hcmdWf (c : HCmd) : Bool := c.words.length == 8

/-- The contents of a section name cores, nodes and registers that exist (Table 18-10). -/
def sectionWf (x : Section) : Bool :=
  match x with
  | .image l ws _ => decide (l < 3072) && ws.all fun w => decide (w.1 < 16384)
  | .route n st sc => decide (n < 3560) && st.all (fun w => decide (w.1 < 128)) && sc.all fun w => decide (w.1 < 1280)
  | .config l rs nt => decide (l < 3072) && rs.all (fun r => decide (r.1 < 65536)) && nt.all fun p => decide (p.1 < 16)
  | .region rs => rs.all fun r => decide (r.1 < 16)
  | .pace .. => true
  | .part bs ls => bs.all (fun b => decide (b.1 < 3072)) && ls.all fun l => decide (l.1 < 8)
  | .seed _ => true
  | .threads l ts => decide (l < 3072) && ts.all fun t => decide (t.1 < 8)
  | .service ls => ls.all fun l => decide (l < 3072)

def secWf (x : Sec) : Bool := decide (x.chip < 4096) && sectionWf x.sec

/-- A management request: a 32-bit ARG (Table 23-5). -/
def requestWf (r : MgtReq) : Bool := decide (r.arg < 4294967296)

/-- What the codes find: an uncorrectable word comes with its bytes, 8 of a scratchpad word or 32 of an HBM word. -/
def eccWf (x : Ecc) : Bool := x.ue.all fun p => p.2.length == 8 || p.2.length == 32

/-- A PCIe memory request of 1 to 4,096 bytes. -/
def hostLen (n : Nat) : Bool := decide (1 ≤ n ∧ n ≤ 4096)

/-- Well-formed commands. -/
def Instr.wf : Instr → Bool
  | .barrierUnitArrival _ u | .replayUnitArrival _ u | .lcreditArrival _ u | .ccreditArrival _ u | .chipdownArrival _ u
  | .laneswapArrival _ u => urgentWf u.unit
  | .beaconArrival _ u _ | .delayUnitArrival _ u _ _ => urgentWf u
  | .cellReceive _ x words => cellWf x.cell && words.all fun w => w.all fun l => decide (l < 9)
  | .portTrainingComplete _ x => trainingWf x
  | .bringupPhaseEnd x => phaseWf x
  | .cmdFetch x => hcmdWf x
  | .load _ secs => secs.all secWf
  | .firmwarePushChunk r | .tokenUnlock r | .tokenReturn r | .tokenScrap r | .tokenSlotEnable r | .tokenSlotRevoke r
  | .tokenFieldmapEdit r | .quote r | .topologyWrite r | .topologyRead r | .fieldmapExport r | .certRead r | .debugPacket r
  | .pldmFwUpdate r | .pldmSensorRead r | .mctpControl r => requestWf r
  | .hbmAccept _ _ _ x | .patrolScrubRead _ x | .spadScrub _ _ x => eccWf x
  | .softRepair _ _ _ x => eccWf x.x
  | .hostBar2Read _ n x => hostLen n && eccWf x
  | .hostBar2Write _ d _ x => hostLen d.length && eccWf x
  | .hostBar4Read _ n => hostLen n
  | .hostBar4Write _ d _ => hostLen d.length
  | .calibration n _ => decide (n < 144)
  | .governorWindowEnd _ hot => decide (hot < 256)
  | _ => true

end Sys2Proof
end

