-- ==== Sys2Proof/Tests/Slice0.lean ====
section
/-! SUPPORT. Tests: ill-formed commands that the check refuses, a witness for the hypotheses of each statement, and single steps whose expected values come from the spec. -/

namespace Sys2Proof.Tests

open Machine

/-! ## Small states -/

/-- ADD g0, g0, g0: a legal word (Table 3-7). -/
def nopWord : BitVec 32 := 0x04000000

/-- Core 0 with thread 0 running in S mode on the given registers, with legal words at 0, 0x40, 0x100 and 0x104, changed by f. -/
def coreWith (rs : List (Nat × TWord)) (f : Core → Core) : Core :=
  f { held := false, thr := [(0, { regs := rs, st := .run, smode := true })], imem := [(0, nopWord), (16, nopWord), (64, nopWord), (65, nopWord)] }

/-- Chip 5 with that core. -/
def st (rs : List (Nat × TWord)) (f : Core → Core := id) : State := { cores := [(0, coreWith rs f)], chipId := 5 }

/-- Chip 5 with that core, its thread 0 changed by f. -/
def stT (rs : List (Nat × TWord)) (f : Thread → Thread) : State := st rs fun k => k.updThread 0 f

def c0 : CoreId := 0
def t0 : Thr := 0

/-- The hypotheses of MayIssue as a test, for a thread that owes no delay slot or an instruction that writes no register. -/
def mayB (s : State) (c : CoreId) (t : Thr) (i : IssueInfo) : Bool :=
  let k := s.coreAt c.val
  let th := k.thread t.val
  !k.held && decide (t.val < (s.env c.val).nthr) && decide (th.st = .run) && decide (th.bmov = none) && !bit k.nxmap (th.pc.toNat / 1024)
    && !mget false k.imark (th.pc.toNat / 4) && legalWord (k.fetched th) && !i.illegal && (!i.noSlot || decide (th.slot = none)) && (!i.loopEnd || decide (loopAt th th.pc = none))
    && (!i.branch || decide (loopAt th (pcNext th.pc) = none)) && (!i.priv || th.smode) && (decide (th.slot = none) || decide (i.writes = []))

theorem may (s : State) (c : CoreId) (t : Thr) (i : IssueInfo) (h : mayB s c t i = true) : MayIssue s c t i := by
  simp only [mayB, Bool.and_eq_true, Bool.or_eq_true, Bool.not_eq_true', decide_eq_true_eq] at h
  obtain ⟨⟨⟨⟨⟨⟨⟨⟨⟨⟨⟨⟨h1, h2⟩, h3⟩, h4⟩, h5⟩, h6⟩, hw⟩, h7⟩, h8⟩, h9⟩, h10⟩, h11⟩, h12⟩ := h
  exact ⟨h1, h2, h3, h4, h5, h6, hw, h7, fun hs => h8.resolve_left (by simp [hs]), fun hs => h9.resolve_left (by simp [hs]),
    fun hs => h10.resolve_left (by simp [hs]), fun sl r hs _ _ => h12.elim (fun hn => by simp [hn] at hs) (fun hw => by simp [hw]),
    fun hs => h11.resolve_left (by simp [hs])⟩

/-- The next state of an answer, or the state given. -/
def nxt (o : Out) : State := match o with | .next s => s | _ => {}

/-- Register r of thread 0 of core 0 after a command. -/
def r0 (o : Out) (r : Nat) : TWord := (((nxt o).coreAt 0).thread 0).reg r

/-! ## Ill-formed commands are refused, well-formed ones accepted -/

def flit (n : Nat) : Flit := { stream := n, hd := true, tr := true, data := List.replicate 64 0 }

theorem test_wf_cell : (Instr.cellReceive 0 ⟨{ seq := 127, ack := 0, body := .vl0 [flit 1023] }, 0⟩ [[8]]).wf = true := by decide
theorem test_ill_cell_lane : (Instr.cellReceive 0 ⟨{ seq := 0, ack := 0, body := .idle }, 0⟩ [[9]]).wf = false := by decide
theorem test_ill_cell_seq : (Instr.cellReceive 0 ⟨{ seq := 128, ack := 0, body := .idle }, 0⟩ []).wf = false := by decide
theorem test_ill_cell_ack : (Instr.cellReceive 0 ⟨{ seq := 0, ack := 128, body := .idle }, 0⟩ []).wf = false := by decide
theorem test_ill_cell_empty : (Instr.cellReceive 0 ⟨{ seq := 0, ack := 0, body := .vl0 [] }, 0⟩ []).wf = false := by decide
theorem test_ill_cell_five_flits :
    (Instr.cellReceive 0 ⟨{ seq := 0, ack := 0, body := .vl0 (List.replicate 5 { flit 1 with hd := false, tr := false }) }, 0⟩ []).wf = false := by decide
theorem test_ill_flit_stream : flitWf (flit 1024) = false := by decide
theorem test_ill_flit_kind : flitWf { flit 1 with kind := 7 } = false := by decide
theorem test_ill_flit_bytes : flitWf { flit 1 with data := [0] } = false := by decide
theorem test_ill_cell_marked : vl0Wf (List.replicate 4 { flit 1 with hd := false, tr := false, psn := 1 }) = false := by decide
theorem test_wf_cell_marked : vl0Wf (List.replicate 3 { flit 1 with hd := false, tr := false, psn := 1 }) = true := by decide
theorem test_ill_cell_two_streams : vl0Wf [{ flit 1 with tr := false }, { flit 2 with hd := false }] = false := by decide
theorem test_ill_cell_inner_trailer : vl0Wf [flit 1, { flit 1 with hd := false }] = false := by decide
theorem test_ill_cell_inner_header : vl0Wf [{ flit 1 with tr := false }, flit 1] = false := by decide
theorem test_ill_unit_kind0 : (Instr.lcreditArrival 0 ⟨{ kind := 0, body := 0 }, 0⟩).wf = false := by decide
theorem test_ill_unit_kind9 : (Instr.chipdownArrival 0 ⟨{ kind := 9, body := 0 }, 0⟩).wf = false := by decide
theorem test_ill_unit_useq : (Instr.beaconArrival 0 { kind := 1, useq := 256, body := 0 } 0).wf = false := by decide
theorem test_wf_unit : (Instr.barrierUnitArrival 0 ⟨{ kind := 8, useq := 255, body := 0 }, 0⟩).wf = true := by decide
theorem test_ill_training_lane : (Instr.portTrainingComplete 0 { lanes := [9] }).wf = false := by decide
theorem test_ill_training_chip : (Instr.portTrainingComplete 0 { peerChip := 4096 }).wf = false := by decide
theorem test_ill_training_port : (Instr.portTrainingComplete 0 { peerPort := 8 }).wf = false := by decide
theorem test_ill_phase_straps : (Instr.bringupPhaseEnd { straps := 4 }).wf = false := by decide
theorem test_ill_phase_bist : (Instr.bringupPhaseEnd { bist := [3456] }).wf = false := by decide
theorem test_ill_phase_site : (Instr.bringupPhaseEnd { temps := [(6, 0)] }).wf = false := by decide
theorem test_ill_phase_temp : (Instr.bringupPhaseEnd { temps := [(0, 256)] }).wf = false := by decide
theorem test_ill_phase_chip : (Instr.bringupPhaseEnd { missing := [4095] }).wf = false := by decide
theorem test_ill_command : (Instr.cmdFetch { words := List.replicate 7 0 }).wf = false := by decide
theorem test_wf_command : (Instr.cmdFetch { words := List.replicate 8 0 }).wf = true := by decide
theorem test_ill_section_chip : secWf { chip := 4096, sec := .seed 0 } = false := by decide
theorem test_ill_section_image_core : sectionWf (.image 3072 [] 0) = false := by decide
theorem test_ill_section_image_word : sectionWf (.image 0 [(16384, 0)] 0) = false := by decide
theorem test_ill_section_route : sectionWf (.route 3560 [] []) = false := by decide
theorem test_ill_section_stab : sectionWf (.route 0 [(128, 0)] []) = false := by decide
theorem test_ill_section_sched : sectionWf (.route 0 [] [(1280, 0)]) = false := by decide
theorem test_ill_section_config : sectionWf (.config 3072 [] []) = false := by decide
theorem test_ill_section_register : sectionWf (.config 0 [(65536, 0)] []) = false := by decide
theorem test_ill_section_notice : sectionWf (.config 0 [] [(16, 0)]) = false := by decide
theorem test_ill_section_region : sectionWf (.region [(16, 0, 0, 0)]) = false := by decide
theorem test_ill_section_part : sectionWf (.part [(3072, 1)] []) = false := by decide
theorem test_ill_section_line : sectionWf (.part [] [(8, 0)]) = false := by decide
theorem test_ill_section_threads : sectionWf (.threads 3072 []) = false := by decide
theorem test_ill_section_thread : sectionWf (.threads 0 [(8, 0)]) = false := by decide
theorem test_ill_section_service : sectionWf (.service [3072]) = false := by decide
theorem test_ill_load : (Instr.load none [{ chip := 0, sec := .service [3072] }]).wf = false := by decide
theorem test_wf_load : (Instr.load none [{ chip := 4095, sec := .image 3071 [(16383, 0)] 0 }]).wf = true := by decide
theorem test_ill_request : (Instr.quote { mailbox := true, arg := 4294967296 }).wf = false := by decide
theorem test_ill_ecc : (Instr.spadScrub 0 0 { ue := [(0, List.replicate 5 0)] }).wf = false := by decide
theorem test_ill_host_read0 : (Instr.hostBar2Read 0 0 {}).wf = false := by decide
theorem test_ill_host_read_long : (Instr.hostBar4Read 0 4097).wf = false := by decide
theorem test_wf_host_read : (Instr.hostBar4Read 0 4096).wf = true := by decide
theorem test_ill_host_write : (Instr.hostBar2Write 0 [] false {}).wf = false := by decide
theorem test_ill_host_write_regs : (Instr.hostBar4Write 0 [] false).wf = false := by decide
theorem test_ill_sensor : (Instr.calibration 144 true).wf = false := by decide
theorem test_ill_hot : (Instr.governorWindowEnd 0 256).wf = false := by decide

/-! ## Witnesses: the step, the registers, integers, binary64, loads and stores -/

def pRW : TWord := ⟨mkPtr true true 64 0x1000 8, .ptr⟩
def sR : State := st [(1, tint 5), (2, tint 7), (3, tint 9)]
def sP : State := st [(1, pRW), (2, tint 7), (3, tint 9)]

theorem wit_IdleStepTicks_reset : State.reset.pending = [] ∧ State.reset.brg.phase = 0 := by decide
theorem wit_IdleStepTicks_up : ({ brg := { phase := 9 } } : State).pending = [] ∧ ({ brg := { phase := 9 } } : State).brg.phase ≠ 0 := by decide
theorem wit_RegisterFile : (31 : Nat) ≠ 0 ∧ (1 : Nat) ≠ 31 := by decide
theorem wit_issue_S : MayIssue sR c0 t0 { writes := [3] } := may _ _ _ _ (by decide)
theorem wit_issue_priv : MayIssue sR c0 t0 { writes := [3], priv := true } := may _ _ _ _ (by decide)
theorem wit_IntTwoOperands : MayIssue sR c0 t0 { writes := [3] } ∧ sR.greg c0 t0 1 = tint 5 ∧ sR.greg c0 t0 2 = tint 7 :=
  ⟨wit_issue_S, by decide, by decide⟩
theorem wit_IntConstants : MayIssue sR c0 t0 { writes := [3] } ∧ sR.greg c0 t0 3 = tint 9 := ⟨wit_issue_S, by decide⟩
/-- The offset at the top of its range, so that the sum is outside it, and inside it with the other sign. -/
theorem wit_PointerArithmetic :
    let s := st [(1, ⟨mkPtr true true 64 0x1000 2097151, .ptr⟩), (2, tint 1)]
    let p := (s.greg c0 t0 1).val
    MayIssue s c0 t0 { writes := [3] } ∧ s.greg c0 t0 1 = ⟨p, .ptr⟩ ∧ s.greg c0 t0 2 = tint 1 ∧
      ¬(ptrOff p + (1 : Word).toInt ≤ 2097151) ∧ ptrOff p - (1 : Word).toInt ≤ 2097151 := ⟨may _ _ _ _ (by decide), by decide⟩
theorem wit_PointerArithmetic_system :
    let s := st [(1, ⟨mkSa 5 2 0, .sptr⟩), (2, tint 1)]
    MayIssue s c0 t0 { writes := [3] } ∧ s.greg c0 t0 1 = ⟨mkSa 5 2 0, .sptr⟩ ∧ s.greg c0 t0 2 = tint 1 ∧ saOff (mkSa 5 2 0) = 0 :=
  ⟨may _ _ _ _ (by decide), by decide⟩
theorem wit_IntOperandTags :
    let s := st [(1, ⟨1, .poison⟩), (2, tflt 2)]
    MayIssue s c0 t0 { writes := [3] } ∧ (s.greg c0 t0 1).tag ≠ .int ∧ (s.greg c0 t0 2).tag ≠ .int := ⟨may _ _ _ _ (by decide), by decide⟩

/-- Thread 0 with every IEEE trap enabled. -/
def sTE : State := stT [(1, tflt 0x7FF0000000000001), (2, tflt 0)] fun th => { th with fsr := 0x1F00 }

theorem wit_FloatOperations :
    MayIssue sTE c0 t0 { writes := [3] } ∧ (sTE.thrOf c0 t0).rounding 7 = some .ties ∧
      sTE.greg c0 t0 1 = tflt 0x7FF0000000000001 ∧ sTE.greg c0 t0 2 = tflt 0 ∧
      (sTE.thrOf c0 t0).te &&& (fltRes (b64.add .ties 0x7FF0000000000001 0)).2 ≠ 0 := ⟨may _ _ _ _ (by decide), by decide⟩
theorem wit_FloatOperations_untrapped :
    let s := st [(1, tflt 1), (2, tflt 0)]
    MayIssue s c0 t0 { writes := [3] } ∧ (s.thrOf c0 t0).rounding 0 = some .ties ∧ s.greg c0 t0 1 = tflt 1 ∧ s.greg c0 t0 2 = tflt 0 ∧
      (s.thrOf c0 t0).te &&& (fltRes (b64.add .ties 1 0)).2 = 0 := ⟨may _ _ _ _ (by decide), by decide⟩
theorem wit_FloatFused :
    let s := st [(1, tflt 1), (2, tflt 2), (3, tflt 3)]
    MayIssue s c0 t0 { writes := [4] } ∧ (s.thrOf c0 t0).rounding 4 = some .away ∧ s.greg c0 t0 1 = tflt 1 ∧ s.greg c0 t0 2 = tflt 2 ∧
      s.greg c0 t0 3 = tflt 3 := ⟨may _ _ _ _ (by decide), by decide⟩
theorem wit_FloatConversions :
    let s := st [(1, tint 1), (2, traw 2)]
    MayIssue s c0 t0 { writes := [3] } ∧ (s.thrOf c0 t0).rounding 1 = some .zero ∧ s.greg c0 t0 1 = tint 1 ∧ s.greg c0 t0 2 = traw 2 :=
  ⟨may _ _ _ _ (by decide), by decide⟩
theorem wit_FloatRoundingIllegal :
    let s := stT [(1, tflt 1)] fun th => { th with fsr := 0xA0 }
    MayIssue s c0 t0 { writes := [3] } ∧ 5 ≤ (s.thrOf c0 t0).rm := ⟨may _ _ _ _ (by decide), by decide⟩
theorem wit_FloatComparisons : b64.isNan 0x7FF0000000000001 = true ∧ b64.isSnan 0x7FF0000000000001 = true ∧ b64.isNan 0x7FF0000000000000 = false := by decide

/-- Core 0 with the word w in its scratchpad at 0x1008, where the pointer of g1 points. -/
def sL (w : TWord) : State := st [(1, pRW), (2, tint 7)] fun k => { k with spad := k.spad.setWord 0x1008 w }

theorem wit_Loads :
    MayIssue (sL (tint 3)) c0 t0 { writes := [3] } ∧ (sL (tint 3)).greg c0 t0 1 = ⟨pRW.val, .ptr⟩ ∧ ptrAddr pRW.val = 0x1008 ∧ ptrR pRW.val = true ∧
      ptrBase pRW.val = 0x1000 ∧ ptrLen pRW.val = 64 ∧ ((sL (tint 3)).coreAt 0).conflict true 0x1008 8 false = false ∧
      loadResult .word (((sL (tint 3)).coreAt 0).spad.word 0x1008) 0x1008 = .ok (tint 3) ∧
      loadResult .ptr (((sL (tint 3)).coreAt 0).spad.word 0x1008) 0x1008 = .error { code := 0x15, sub := 1, addr := 0x1008 } :=
  ⟨may _ _ _ _ (by decide), by decide⟩
/-- The last word that the pointer bounds, and the first beyond it. -/
theorem wit_Loads_bounds : ptrAddr pRW.val + 48 + 8 = ptrBase pRW.val + ptrLen pRW.val ∧ ¬(ptrAddr pRW.val + 56 + 8 ≤ (ptrBase pRW.val : Int) + ptrLen pRW.val) := by decide
theorem wit_LoadAddressFaults : (ptrAddr pRW.val + 3) % 8 ≠ 0 ∧ ptrR (mkPtr false true 64 0x1000 8) = false ∧ ptrAddr pRW.val - 16 < ptrBase pRW.val := by decide
theorem wit_LoadTags : (0x1008 : Nat) % 8 = 0 ∧ (tint 3).tag = .int := by decide

/-- The same with a write of the word's bytes held in the tracker. -/
def sConf : State := st [(1, pRW), (2, tint 7)] fun k => (k.trkTake true 0x1008 8 true).1

theorem wit_LoadConflict : MayIssue sConf c0 t0 { writes := [3] } ∧ sConf.greg c0 t0 1 = ⟨pRW.val, .ptr⟩ ∧ (sConf.coreAt 0).conflict true 0x1008 8 false = true :=
  ⟨may _ _ _ _ (by decide), by decide⟩
theorem wit_Stores :
    MayIssue sP c0 t0 {} ∧ sP.greg c0 t0 1 = ⟨pRW.val, .ptr⟩ ∧ ptrW pRW.val = true ∧ (sP.coreAt 0).conflict true 0x1008 8 true = false ∧
      (sP.greg c0 t0 2).tag = .int ∧ (sP.coreAt 0).spad.tagAt 0x1008 = .empty ∧ ((sL (tflt 1)).coreAt 0).spad.tagAt 0x1008 = .flt :=
  ⟨may _ _ _ _ (by decide), by decide⟩
theorem wit_StoreFrame : ({} : Spad).bytes.wf = true ∧ 0x1008 % 8 = 0 := by decide

/-- A block move of n bytes from 0x1000 to 0x2078: its first block ends at the boundary 0x2080. -/
def sB (n : Word) (f : Core → Core := id) : State :=
  st [(1, ⟨mkPtr true true 0x200 0x1000 0, .ptr⟩), (2, tint n), (3, ⟨mkPtr true true 0x200 0x2000 0x78, .ptr⟩)] fun k => f { k with spad := (k.spad.setWord 0x1000 (tint 1)).setWord 0x1008 (tint 2) }

theorem wit_BlockMove :
    MayIssue (sB 16) c0 t0 { writes := [3, 1, 2] } ∧ bmovCheck ((sB 16).thrOf c0 t0) 3 1 2 = .ok (0x2078, 0x1000, 16) ∧
      2 ≤ ((sB 16).coreAt 0).trkFree ∧ bmovCheck ((sB 0).thrOf c0 t0) 3 1 2 = .ok (0x2078, 0x1000, 0) := ⟨may _ _ _ _ (by decide), by decide⟩
theorem wit_BlockMove_block :
    let s := nxt (exec (.bmov c0 t0 3 1 2) (sB 16))
    (s.coreAt 0).held = false ∧ (s.thrOf c0 t0).st = .run ∧ (s.thrOf c0 t0).bmov = some ⟨3, 1, 2, 0, 1, false⟩ ∧
      (s.coreAt 0).entConflict 0 = false ∧ (s.coreAt 0).entConflict 1 = false ∧ bmovCheck (s.thrOf c0 t0) 3 1 2 = .ok (0x2078, 0x1000, 16) := by decide
theorem wit_BlockMove_copy : (copyBlock ((sB 16).coreAt 0).spad 0x1000 0x2078 8).isOk = true := by decide

def sIO (a : Word) (f : Thread → Thread := id) : State := stT [(1, tint a), (3, tint 1)] f

theorem wit_InOut :
    MayIssue (sIO 0x2000) c0 t0 { writes := [3] } ∧ ((sIO 0x2000).thrOf c0 t0).smode = true ∧ (sIO 0x2000).greg c0 t0 1 = tint 0x2000 ∧
      (0x2000 : Word).toInt + (0 : BitVec 16).toInt = (0x2000 : Nat) ∧ outHeld ((sIO 0x2000).env 0) ((sIO 0x2000).coreAt 0) 0x2000 = false :=
  ⟨may _ _ _ _ (by decide), by decide⟩
theorem wit_InOut_denied :
    let s := sIO 0x2000 fun th => { th with smode := false }
    MayIssue s c0 t0 { writes := [3] } ∧ (s.thrOf c0 t0).smode = false ∧ uWriteDenied (s.env 0).vcore 0 0x2000 = true ∧
      uReadDenied 0x8000 = true := ⟨may _ _ _ _ (by decide), by decide⟩
theorem wit_TimerWaitRead :
    let s := stT [] fun th => { th with tmrEn := true, tmrTick := 9 }
    MayIssue s c0 t0 { writes := [3] } ∧ (s.thrOf c0 t0).smode = true ∧ (s.thrOf c0 t0).tmrEn = true ∧ (sR.thrOf c0 t0).tmrEn = false :=
  ⟨may _ _ _ _ (by decide), by decide⟩

/-- g1 names HBM site 0 of the chip itself, g2 a word to store. -/
def sFar : State := st [(1, ⟨mkSa 5 0 0x1000, .sptr⟩), (2, tint 7)]

theorem wit_FarAccesses :
    let a := (sFar.greg c0 t0 1).val
    MayIssue sFar c0 t0 { writes := [3] } ∧ (sFar.env 0).localOff a = none ∧ 1 ≤ (sFar.coreAt 0).trkFree ∧ farIllegal false 3 0 = false ∧ farIllegal true 3 0 = false ∧
      farCheck (sFar.env 0) (sFar.thrOf c0 t0) false 3 1 3 0 = .ok (a, .empty) ∧ farCheck (sFar.env 0) (sFar.thrOf c0 t0) true 2 1 3 0 = .ok (a, tint 7) ∧
      (sFar.coreAt 0).conflict false ((sFar.env 0).normChip a).toNat 8 false = false := ⟨may _ _ _ _ (by decide), by decide⟩
theorem wit_InstructionMemory :
    let s := st [(1, tint 0xFFFC), (2, traw 7)]
    MayIssue s c0 t0 { writes := [3], priv := true } ∧ MayIssue s c0 t0 { priv := true } ∧ s.greg c0 t0 1 = tint 0xFFFC ∧ (0xFFFC : Word).toNat % 4 = 0 ∧
      s.greg c0 t0 2 = traw 7 := ⟨may _ _ _ _ (by decide), may _ _ _ _ (by decide), by decide⟩

/-! ## Witnesses: control flow, entries and returns, moves and creation -/

/-- A thread at 0x40, the end of both loop levels, with the given counts. -/
def loopThr (lc0 lc1 : Word) : Thread := { pc := 0x40, le1 := 0x40, ls1 := 0x10, lc1 := lc1, le0 := 0x40, ls0 := 8, lc0 := lc0, st := .run, smode := true }

theorem wit_Sequence_slot : ({ slot := some ⟨0, some 0x80, none⟩ } : Thread).slot = some ⟨0, some 0x80, none⟩ := rfl
theorem wit_Sequence_inner : (loopThr 2 2).slot = none ∧ 1 < (loopThr 2 2).lc1.toInt ∧ (loopThr 2 2).pc = (loopThr 2 2).le1 := by decide
theorem wit_Sequence_outer : ¬(0 < (loopThr 2 0).lc1.toInt ∧ (loopThr 2 0).pc = (loopThr 2 0).le1) ∧ 1 < (loopThr 2 0).lc0.toInt ∧ (loopThr 2 0).pc = (loopThr 2 0).le0 := by decide
theorem wit_Sequence_none : ¬(0 < (loopThr 0 (-1)).lc1.toInt) ∧ ¬(0 < (loopThr 0 (-1)).lc0.toInt) := by decide
theorem wit_Sequence_last : (loopThr 1 1).lc1 = 1 ∧ (loopThr 1 1).lc0 = 1 ∧ ¬(0 < (loopThr 0 1).lc0.toInt) ∧ 1 < (loopThr 2 1).lc0.toInt ∧ ¬(0 < (loopThr 1 0).lc1.toInt) := by decide
theorem wit_ConditionalBranch :
    MayIssue sR c0 t0 { noSlot := true, loopEnd := true, branch := true } ∧ MayIssue sR c0 t0 {} ∧ sR.greg c0 t0 1 = tint 5 :=
  ⟨may _ _ _ _ (by decide), may _ _ _ _ (by decide), by decide⟩
/-- A JALR to the last word of the address range, to a misaligned address and to the first beyond. -/
theorem wit_Branches :
    let s := st [(1, tint 0xFFFC), (2, tint 0xFFFE), (4, ⟨0x10000, .code⟩)]
    MayIssue s c0 t0 { writes := [3], noSlot := true, loopEnd := true, branch := true } ∧ s.greg c0 t0 1 = tint 0xFFFC ∧ (0xFFFC : Word).toNat % 4 = 0 ∧
      (0xFFFC : Word).toNat < 65536 ∧ s.greg c0 t0 2 = tint 0xFFFE ∧ (0xFFFE : Word).toNat % 4 ≠ 0 ∧ s.greg c0 t0 4 = ⟨0x10000, .code⟩ ∧ 65536 ≤ (0x10000 : Word).toNat :=
  ⟨may _ _ _ _ (by decide), by decide⟩
theorem wit_Loops :
    let s := st [(1, tint 1), (2, tint 0)]
    MayIssue s c0 t0 { noSlot := true, loopEnd := true } ∧ (8191 : BitVec 13) ≠ 0 ∧ s.greg c0 t0 1 = tint 1 ∧ 0 < (1 : Word).toInt ∧ s.greg c0 t0 2 = tint 0 ∧
      (0 : Word).toInt ≤ 0 := ⟨may _ _ _ _ (by decide), by decide⟩
theorem wit_IllegalForms_slot :
    let s := stT [] fun th => { th with slot := some ⟨0, none, none⟩ }
    MayIssue s c0 t0 {} ∧ (s.thrOf c0 t0).slot ≠ none ∧ 6 < (7 : BitVec 13).toNat := ⟨may _ _ _ _ (by decide), by decide⟩
theorem wit_IllegalForms_loop :
    let s := st [] fun k => k.setThread 0 (loopThr 0 1)
    MayIssue s c0 t0 {} ∧ (s.thrOf c0 t0).slot = none ∧ 0 < (s.thrOf c0 t0).lc1.toInt ∧ (s.thrOf c0 t0).pc = (s.thrOf c0 t0).le1 := ⟨may _ _ _ _ (by decide), by decide⟩
theorem wit_ThreadRegisterMoves :
    let s := st [(1, tint 0xFFFC), (2, tint 0xFFFD), (4, tint 0x10000)]
    MayIssue s c0 t0 { writes := [3] } ∧ MayIssue s c0 t0 {} ∧ s.greg c0 t0 1 = tint 0xFFFC ∧ s.greg c0 t0 2 = tint 0xFFFD ∧ (0xFFFD : Word).toNat % 4 ≠ 0 ∧
      s.greg c0 t0 4 = tint 0x10000 ∧ (0x10000 : Word).toNat % 4 = 0 := ⟨may _ _ _ _ (by decide), may _ _ _ _ (by decide), by decide⟩
theorem wit_SystemCalls :
    let s := st [] fun k => { k with entEn := [(7, true)], vecmode := false }
    MayIssue s c0 t0 { noSlot := true } ∧ (7 : BitVec 8).toNat ≤ 7 ∧ mget false (s.coreAt 0).entEn 7 = true ∧ mget false (s.coreAt 0).entEn 6 = false ∧
      (s.coreAt 0).vecmode = false ∧ 7 < (8 : BitVec 8).toNat := ⟨may _ _ _ _ (by decide), by decide⟩
theorem wit_SystemCalls_vectored :
    let s := st [] fun k => { k with vecmode := true }
    MayIssue s c0 t0 { noSlot := true } ∧ (s.coreAt 0).vecmode = true := ⟨may _ _ _ _ (by decide), by decide⟩
theorem wit_NormalEntry : ((coreWith [] id).thread 0).dfh = false ∧ ((coreWith [] id).thread 0).arm = true ∧ ((coreWith [] id).thread 0).ml.toNat < (faultLevel 0x10).toNat := by decide
theorem wit_DoubleFault : ({ arm := false } : Thread).dfh = false ∧ ({ arm := false } : Thread).arm = false ∧ EvKind.trap ≠ .intr := by decide
theorem wit_DoubleFault_masked : (faultLevel 0x10).toNat ≤ ({ ml := 7 } : Thread).ml.toNat := by decide
theorem wit_ThirdFault : ((coreWith [] fun k => k.updThread 0 fun th => { th with dfh := true }).thread 0).dfh = true := by decide
theorem wit_PrivilegedInUserMode :
    let s := stT [] fun th => { th with smode := false }
    MayIssue s c0 t0 { writes := [3] } ∧ (s.thrOf c0 t0).smode = false ∧ (s.thrOf c0 t0).slot = none ∧ (1 : BitVec 8).toNat ≤ 1 := ⟨may _ _ _ _ (by decide), by decide⟩
theorem wit_ReturnInstructions : MayIssue sR c0 t0 { noSlot := true, priv := true } := may _ _ _ _ (by decide)
theorem wit_ArmInstruction : MayIssue sR c0 t0 { priv := true } ∧ (sR.thrOf c0 t0).arm = true ∧ (sR.thrOf c0 t0).dfh = false := ⟨may _ _ _ _ (by decide), by decide⟩
theorem wit_PendingHalt : ({ haltPend := true, st := .run } : Thread).slot = none ∧ ({ haltPend := true, st := .run } : Thread).shadow = false := by decide
theorem wit_TagMoves :
    let s := st [(1, ⟨1, .poison⟩), (2, traw 2)]
    MayIssue s c0 t0 { writes := [3] } ∧ (s.greg c0 t0 1).tag ≠ .empty ∧ (s.greg c0 t0 2).tag = .raw ∧ (s.greg c0 t0 3).tag = .empty := ⟨may _ _ _ _ (by decide), by decide⟩
/-- An offset at the end of the bounds, and one beyond it. -/
theorem wit_PointerFields :
    let p := mkPtr true true 64 0x1000 64
    let q := mkPtr true true 64 0x1000 65
    let s := st [(1, ⟨p, .ptr⟩), (2, tint 0), (3, ⟨q, .ptr⟩), (4, ⟨mkSa 5 2 8, .sptr⟩)]
    MayIssue s c0 t0 { writes := [5] } ∧ s.greg c0 t0 1 = ⟨p, .ptr⟩ ∧ s.greg c0 t0 2 = tint 0 ∧ 0 ≤ ptrOff p ∧ ptrOff p ≤ (ptrLen p : Int) ∧
      s.greg c0 t0 3 = ⟨q, .ptr⟩ ∧ (ptrLen q : Int) < ptrOff q ∧ (s.greg c0 t0 4).tag = .sptr := ⟨may _ _ _ _ (by decide), by decide⟩
theorem wit_PointersNarrow : let p := mkPtr true true 64 0x1000 8; 0 ≤ ptrOff p ∧ ptrOff p ≤ (ptrLen p : Int) ∧ ptrBase p + ptrLen p < 2 ^ 20 := by decide
/-- Ring 2 with a message at unit 0 that a thread holds, of endpoint 3 at epoch 9; g1 is its handle, g2 one of an older epoch. -/
def sMsg : State :=
  st [(1, ⟨mkHnd 6 2 0 9, .hnd⟩), (2, ⟨mkHnd 6 2 0 8, .hnd⟩)] fun k => { k with
    chi := [(3, { epoch := 9 })]
    rings := [(2, { slotKind := true, slot := 8, size := 64, base := 4, msgs := [⟨0, 1, 3, 9, 8, 0, 5, 0, .held⟩] })]
    spad := { bytes := [(4 * 128 + 5, 3)] } }

theorem wit_MessagePointers :
    MayIssue sMsg c0 t0 { writes := [3] } ∧ (sMsg.greg c0 t0 1).tag = .hnd ∧ hndKind (sMsg.greg c0 t0 1).val = 6 ∧ (msgHeld (sMsg.coreAt 0) (sMsg.greg c0 t0 1).val).2 = true ∧
      (msgHeld (sMsg.coreAt 0) (sMsg.greg c0 t0 2).val).2 = false := ⟨may _ _ _ _ (by decide), by decide⟩
/-- A pointer to the last word of the scratchpad, and one past it. -/
theorem wit_Creation :
    let s := st [(1, tint 0x1FFF8), (2, tint 8), (4, tint (-1))]
    MayIssue s c0 t0 { writes := [3], priv := true } ∧ s.greg c0 t0 1 = tint 0x1FFF8 ∧ s.greg c0 t0 2 = tint 8 ∧ (0x1FFF8 : Word).toInt + (8 : Word).toInt ≤ (s.env 0).spadBytes ∧
      s.greg c0 t0 4 = tint (-1) ∧ (-1 : Word).toInt < 0 ∧ hndOk (mkHnd 1 63 0 0) = true ∧ hndOk (mkHnd 1 64 0 0) = false := ⟨may _ _ _ _ (by decide), by decide⟩

/-! ## Witnesses: counters, channels, DMA and the engine queues -/

/-- g1 names counter 1 of the core itself, g2 is an amount, g3 a counter of another chip. -/
def sC (f : Core → Core := id) : State :=
  { st [(1, ⟨mkSa 5 2 0x808, .sptr⟩), (2, tint 7), (3, ⟨mkSa 9 2 0x1000810, .sptr⟩), (4, tint 0)] f with blx := [(3, { isLocal := true }), (4, { isLocal := true, brk := true })] }

/-- The same with a far write of thread 0 not acknowledged. -/
def sCW : State := sC fun k => { k with writes := [{ xid := 0, issuer := 0, scope := 2, addr := 0 }] }

theorem wit_CounterIncrement : (47 : Nat) < 48 ∧ 4294967295 < 2 ^ 32 := by decide
theorem wit_CountersLocal :
    MayIssue (sC) c0 t0 {} ∧ (47 : BitVec 7).toNat ≤ 47 ∧ (sC).greg c0 t0 2 = tint 7 ∧ 0 < (7 : Word).toNat ∧ ((sC).coreAt 0).released 0 3 = true ∧
      (sC).greg c0 t0 4 = tint 0 ∧ MayIssue sCW c0 t0 {} ∧ (sCW.coreAt 0).released 0 3 = false := ⟨may _ _ _ _ (by decide), by decide, by decide, by decide, by decide, by decide, may _ _ _ _ (by decide), by decide⟩
theorem wit_CountersRemote :
    let a := (sC.greg c0 t0 1).val
    let b := (sC.greg c0 t0 3).val
    MayIssue sC c0 t0 {} ∧ sC.greg c0 t0 1 = ⟨a, .sptr⟩ ∧ (saCounter a).isSome = true ∧ (sC.env 0).ownCounter a = some 1 ∧ (saCounter b).isSome = true ∧
      (sC.env 0).ownCounter b = none ∧ (sC.coreAt 0).pace.mode = false ∧ (sC.coreAt 0).holdRoom = true ∧ (sC.coreAt 0).released 0 1 = true := ⟨may _ _ _ _ (by decide), by decide⟩
/-- A counter at its target, one below it and one broken; line 4 is broken. -/
theorem wit_CounterWaits :
    let s := sC fun k => { k with sc := [(5, 7), (6, 6)], bgen := [(3, 7)], scBrk := 128 }
    MayIssue s c0 t0 {} ∧ s.greg c0 t0 2 = tint 7 ∧ (s.coreAt 0).scBroken 5 = false ∧ 7 ≤ ((s.coreAt 0).scAt 5).toNat ∧ ((s.coreAt 0).scAt 6).toNat < 7 ∧
      (s.coreAt 0).scBroken 6 = false ∧ (s.coreAt 0).scBroken 7 = true ∧ (s.line 3).brk = false ∧ 7 ≤ ((s.coreAt 0).bgenAt 3).toNat ∧ (s.line 2).brk = false ∧
      ((s.coreAt 0).bgenAt 2).toNat < 7 ∧ (s.line 4).brk = true := ⟨may _ _ _ _ (by decide), by decide⟩
theorem wit_FencesAndBarriers :
    let s := sC fun k => { k with part := 0x18, arrive := 0 }
    MayIssue s c0 t0 {} ∧ (s.coreAt 0).released 0 3 = true ∧ ((s.coreAt 0).part.getLsbD 3 && (s.line 3).isLocal) = true ∧ (s.line 3).brk = false ∧
      (s.coreAt 0).arrived 3 = false ∧ (s.coreAt 0).pace.mode = false ∧ ((s.coreAt 0).part.getLsbD 4 && (s.line 4).isLocal) = true ∧ (s.line 4).brk = true ∧
      ((s.coreAt 0).part.getLsbD 2 && (s.line 2).isLocal) = false := ⟨may _ _ _ _ (by decide), by decide⟩
theorem wit_FencesAndBarriers_arrived : ((sC fun k => { k with part := 8, arrive := 8 }).coreAt 0).arrived 3 = true ∧ (sCW.coreAt 0).released 0 3 = false := by decide

/-- Core 0 with thread 0 the owner of every queue, and n commands in each of the engine queues. -/
def sQ (n : Nat) (f : Core → Core := id) : State :=
  sC fun k => f { k with qown := 0x8888, mxe := { eng := { q := List.replicate n { qw := [] } } }, vxe := { eng := { q := List.replicate n { qw := [] } } } }

theorem wit_CountersQueued :
    MayIssue (sQ 31) c0 t0 {} ∧ ((sQ 31).env 0).vcore = false ∧ ((sQ 31).coreAt 0).owner ((sQ 31).env 0) 1 = some 0 ∧ (((sQ 31).coreAt 0).eng 1).q.length < qDepth 1 ∧
      qDepth 1 ≤ (((sQ 32).coreAt 0).eng 1).q.length ∧ ctrOperands ((sQ 31).env 0) ((sQ 31).coreAt 0) ((sQ 31).thrOf c0 t0) (qWord 0 2 0 0 2 5) = .ok (0, 7) ∧
      (sC.coreAt 0).owner (sC.env 0) 1 ≠ some 0 := ⟨may _ _ _ _ (by decide), by decide⟩
theorem wit_PaceInstruction :
    let s := sC fun k => { k with pace := { mode := true, tmask := 1, per := 100 } }
    MayIssue s c0 t0 {} ∧ (s.coreAt 0).pace.mode = true ∧ (s.coreAt 0).pace.tmask.getLsbD 0 = true ∧
      (paceAdvance (s.env 0) ((s.coreAt 0).updThread 0 fun th => { th with pdone := true })).pace.work ≤ (s.thrOf c0 t0).pw := ⟨may _ _ _ _ (by decide), by decide⟩
theorem wit_PaceInstruction_boundary :
    let s := { (sC fun k => { k with pace := { mode := true, tmask := 1, per := 100 } }) with tb := 5000 }
    (s.thrOf c0 t0).pw < (paceAdvance (s.env 0) ((s.coreAt 0).updThread 0 fun th => { th with pdone := true })).pace.work := by decide

/-- Outbound endpoint 2 as given, a handle of it in g1, a message of 16 bytes in g2 and g3; g4 is a handle of inbound endpoint 3. -/
def sS (x : Cho) (f : Core → Core := id) : State :=
  st [(1, ⟨mkHnd 1 2 0 0, .hnd⟩), (2, pRW), (3, tint 16), (4, ⟨mkHnd 2 3 0 0, .hnd⟩)] fun k => f { k with cho := [(2, x)] }

theorem wit_Send :
    let s := sS { fsm := { en := true, st := .on }, slotKind := true, slot := 2, grant := 8, credit := 1 }
    let k := s.coreAt 0
    MayIssue s c0 t0 {} ∧ s.greg c0 t0 1 = ⟨mkHnd 1 2 0 0, .hnd⟩ ∧ hndKind (mkHnd 1 2 0 0) = 1 ∧ s.greg c0 t0 2 = pRW ∧ s.greg c0 t0 3 = tint (BitVec.ofNat 64 16) ∧
      ptrRange pRW.val 16 false = true ∧ k.conflict true 0x1008 16 false = false ∧ (k.choAt 2).fsm.st = .on ∧ 16 ≤ 16 * (k.choAt 2).slot - 16 ∧
      msgUnits true 16 ≤ (k.choAt 2).grant ∧ msgUnits true 16 ≤ (k.choAt 2).credit ∧ k.placesUsed < 4 := ⟨may _ _ _ _ (by decide), by decide⟩
theorem wit_Send_waits : ¬(msgUnits true 16 ≤ ((sS { credit := 0 }).coreAt 0 |>.choAt 2).credit) ∧ 16 * 1 - 16 < 16 ∧ ((sS {}).coreAt 0 |>.choAt 2).fsm.st = .off := by decide
theorem wit_OpenAndClose :
    MayIssue (sS {}) c0 t0 {} ∧ hndKind ((sS {}).greg c0 t0 1).val = 1 ∧ (((sS {}).coreAt 0).choAt 2).fsm.st = .off ∧
      (((sS { fsm := { st := .on } }).coreAt 0).choAt 2).fsm.st = .on ∧ (((sS { fsm := { st := .starting } }).coreAt 0).choAt 2).fsm.st = .starting := ⟨may _ _ _ _ (by decide), by decide⟩
theorem wit_CloseInbound :
    let s := sS {} fun k => { k with chi := [(3, { fsm := { en := true, st := .on }, epoch := 9, peer := some { chip := 5, lcid := 1, cho := 4 } })] }
    MayIssue s c0 t0 {} ∧ s.greg c0 t0 4 = ⟨mkHnd 2 3 0 0, .hnd⟩ ∧ hndKind (mkHnd 2 3 0 0) = 2 ∧ ((s.coreAt 0).chiAt 3).fsm.st = .on ∧ ((s.coreAt 0).chiAt 3).peer.isSome = true :=
  ⟨may _ _ _ _ (by decide), by decide⟩
theorem wit_DoneInstruction :
    let s := stT [] fun th => { th with msg := some ⟨2, 0, 9⟩ }
    MayIssue s c0 t0 {} ∧ (s.thrOf c0 t0).haltPend = false ∧ (s.thrOf c0 t0).msg = some ⟨2, 0, 9⟩ ∧ (sR.thrOf c0 t0).msg = none := ⟨may _ _ _ _ (by decide), by decide⟩

/-- A copy of 64 bytes from the core's scratchpad to that of another chip, its status at 0x800 (Table 9-2). -/
def desc : List Word := [saCore 5 1 0 0x1000, saCore 9 1 3 0x2000, pack [(63, 0, 16)], 0, 0, 0, 0, 0, 0, 0, saCore 5 1 0 0x800, 0]

/-- The descriptor at 64, a handle of DMA channel 1 in g1 and a pointer to the descriptor in g2. -/
def sD (f : Core → Core := id) : State :=
  st [(1, ⟨mkHnd 5 1 0 0, .hnd⟩), (2, ⟨mkPtr true true 4096 0 64, .ptr⟩), (3, tint 128), (4, tint 400)] fun k =>
    f { k with qown := 0x8888, spad := (List.range 12).foldl (fun s i => s.setWord (64 + 8 * i) ⟨desc.getD i 0, .raw⟩) {} }

theorem wit_DmaIssue :
    MayIssue sD c0 t0 {} ∧ sD.greg c0 t0 1 = ⟨mkHnd 5 1 0 0, .hnd⟩ ∧ hndKind (mkHnd 5 1 0 0) = 5 ∧ (sD.coreAt 0).ownerFull (sD.env 0) 0 3 = false ∧
      ptrRange (mkPtr true true 4096 0 64) 96 false = true ∧ readDesc (sD.coreAt 0).spad 64 12 = .ok desc ∧
      dmaChecks (sD.env 0) (sD.coreAt 0) 0 1 64 true desc = .ok () ∧ 2 ≤ (sD.coreAt 0).trkFree := ⟨may _ _ _ _ (by decide), by decide +kernel⟩
theorem wit_DmaIssue_full :
    let s := sD fun k => k.setDma 1 { k.dma 1 with eng := { q := List.replicate 16 { qw := desc } } }
    (s.coreAt 0).ownerFull (s.env 0) 0 3 = true := by decide
theorem wit_DmaAbortInstruction :
    let s := sD fun k => k.setDma 1 { k.dma 1 with eng := { q := [{ qw := desc ++ [pack [(encDmago 1 2, 0, 32)]] }], parked := true } }
    headTransfer (sD.coreAt 0) 1 = none ∧ MayIssue s c0 t0 {} ∧ (headTransfer (s.coreAt 0) 1).isSome = true ∧ ((s.coreAt 0).dma 1).eng.halt = false ∧
      ((s.coreAt 0).dma 1).eng.parked = true := ⟨by decide, may _ _ _ _ (by decide), by decide⟩

/-- Tiles 0 and 1 of BF16, 32 by 64 and 64 by 32. -/
def tiles : List (Nat × Option Shape) := [(0, some ⟨1, 32, 64⟩), (1, some ⟨1, 64, 32⟩)]

theorem wit_MatrixIssue :
    MayIssue (sQ 31) c0 t0 {} ∧ mxeIllegal ((sQ 31).env 0).vcore (encTrel 7) = false ∧ ((sQ 31).coreAt 0).owner ((sQ 31).env 0) 0 = some 0 ∧
      ((sQ 31).coreAt 0).mxe.eng.q.length < 32 ∧ 32 ≤ ((sQ 32).coreAt 0).mxe.eng.q.length ∧ (mxeCheck ((sQ 31).coreAt 0).mxe (encTrel 7) 1).isOk = true ∧
      (mxeCheck ((sQ 31).coreAt 0).mxe (encTmma 0 0 1 31 31 31 true false false) 1).isOk = false ∧ mxeIllegal true (encTrel 7) = true ∧
      (sC.coreAt 0).owner (sC.env 0) 0 ≠ some 0 := ⟨may _ _ _ _ (by decide), by decide⟩
theorem wit_MatrixMemory :
    let core := sD.coreAt 0
    let w := encTload 2 2 3 0 3 1 0
    let ext := mxeExtent core.mxe w 1 64 128
    MayIssue sD c0 t0 {} ∧ sD.greg c0 t0 3 = tint 128 ∧ core.owner (sD.env 0) 0 = some 0 ∧ core.mxe.eng.q.length < 32 ∧ 1 ≤ core.trkFree ∧
      mxeIllegal (sD.env 0).vcore w = false ∧ ptrCovers (mkPtr true true 4096 0 64) ext.1 ext.2 = true ∧ (mxeCheck core.mxe w 1).isOk = true := ⟨may _ _ _ _ (by decide), by decide⟩
theorem wit_MatrixMemory_store :
    let m : Mxe := { tags := [(8, some ⟨4, 32, 32⟩)] }
    let w := encTstore 8 2 3 1 3 true true
    let ext := mxeExtent m w 1 64 128
    mxeIllegal false w = false ∧ ptrCovers (mkPtr true true 4096 0 64) ext.1 ext.2 = true ∧ (mxeCheck m w 1).isOk = true := by decide
theorem wit_TileTags :
    (mxeCheck {} (encTinit 7 31 63 1) 1).isOk = true ∧ (mxeCheck { tags := tiles } (encTmma 3 0 1 31 31 31 false false false) 1).isOk = false ∧
      (mxeCheck { tags := tiles } (encTmma 3 0 1 31 31 31 true false false) 1).isOk = true := by decide
theorem wit_VectorIssue :
    MayIssue (sQ 31) c0 t0 {} ∧ vxeIllegal 0 (encV38 31 0 31 4 0) = false ∧ vxeIllegal 0 (encV38 31 0 31 5 0) = true ∧ ((sQ 31).coreAt 0).owner ((sQ 31).env 0) 1 = some 0 ∧
      ((sQ 31).coreAt 0).vxe.eng.q.length < 32 ∧ 32 ≤ ((sQ 32).coreAt 0).vxe.eng.q.length := ⟨may _ _ _ _ (by decide), by decide⟩
theorem wit_VectorScalar :
    let s := st [(2, tint 511), (3, tint (-513))] fun k => { k with qown := 0x8888 }
    MayIssue s c0 t0 {} ∧ (s.coreAt 0).owner (s.env 0) 1 = some 0 ∧ s.greg c0 t0 2 = tint 511 ∧ (511 : Word).toInt ≤ 511 ∧ s.greg c0 t0 3 = tint (-513) ∧
      (-513 : Word).toInt < -512 ∧ vxeIllegal 0 (encV3B 3 4 2 10 0 0 false false) = false := ⟨may _ _ _ _ (by decide), by decide⟩
theorem wit_VectorMemory :
    let p := mkPtr true true 4096 0 64
    let e0 := vxeExtent (encV3C 31 2 0 0 0) 64 0
    let e3 := vxeExtent (encV3C 31 2 4 3 (5 * 32)) 64 400
    MayIssue sD c0 t0 {} ∧ (sD.coreAt 0).owner (sD.env 0) 1 = some 0 ∧ 1 ≤ (sD.coreAt 0).trkFree ∧ sD.greg c0 t0 4 = tint 400 ∧ ptrAddr p % 4 = 0 ∧
      sextNat (400 % 2 ^ 32) 32 % 4 = 0 ∧ ptrCovers p e0.1 e0.2 = true ∧ ptrCovers p e3.1 e3.2 = true := ⟨may _ _ _ _ (by decide), by decide⟩
theorem wit_VectorLanes :
    let s := st [] fun k => { k with vxe := { eng := { q := [{ qw := vxeRecord k.vxe (encV38 3 1 2 0 0) 0 0 0, started := true }] } } }
    s.dead = false ∧ s.pins.throttle = false ∧ (s.coreAt 0).vxe.te = 0 ∧ (s.coreAt 0).vxe.v.wf = true ∧ (s.coreAt 0).rings = [] ∧ (s.coreAt 0).vxe.eng.q.length = 1 := by decide

theorem wit_VectorDefault :
    let s := st [] fun k => { k with vxe := { te := 1, eng := { halt := true, hcause := 3, q := [{ qw := vxeRecord { te := 1 } (encV38 3 1 2 0 0) 0 0 0, started := true }] } } }
    (s.coreAt 0).vxe.eng.halt = true ∧ (s.coreAt 0).vxe.eng.hcause = 3 ∧ (s.coreAt 0).vxe.v.wf = true ∧ (s.coreAt 0).rings = [] ∧
      (s.coreAt 0).vxe.eng.q.map QEnt.qw = [vxeRecord (s.coreAt 0).vxe (encV38 3 1 2 0 0) 0 0 0] := by decide

/-! ## Witnesses: threads, cores and pace as events -/

theorem wit_ThreadStates_start :
    let s := { stT [] (fun th => { th with st := .halt }) with tb := 5 }
    (s.coreAt 0).held = false ∧ 0 < (s.env 0).nthr ∧ (s.thrOf c0 t0).st = .halt ∧ (s.coreAt 0).pace.mode = false := by decide
/-- One tick before T0. -/
theorem wit_ThreadStates_paced :
    let s := { st [] (fun k => { k.updThread 0 fun th => { th with st := .halt } with pace := { mode := true, tmask := 1, t0 := 6 } }) with tb := 5 }
    (s.thrOf c0 t0).st = .halt ∧ (s.coreAt 0).pace.mode = true ∧ (s.coreAt 0).pace.tmask.getLsbD 0 = true ∧ s.tb < (s.coreAt 0).pace.t0 := by decide
theorem wit_ThreadStates_halt :
    (sR.thrOf c0 t0).st = .run ∧ (sR.thrOf c0 t0).bmov = none ∧ (sR.thrOf c0 t0).waitOp = none ∧ (sR.thrOf c0 t0).slot = none ∧ (sR.thrOf c0 t0).shadow = false := by decide
theorem wit_ThreadStates_wait : ({ st := .wait, wcause := .farLoad } : Thread).st = .wait ∧ ({ st := .wait, wcause := .sendRead } : Thread).wcause = .sendRead := by decide
theorem wit_ThreadStates_unpark :
    let th : Thread := { st := .parked, prior := .run }
    th.st = .parked ∧ th.prior = .run ∧ th.haltPend = false ∧ ({ st := .parked, prior := .idle } : Thread).prior ≠ .run := by decide
/-- The timer's tick and the watchdog's window end now. -/
theorem wit_ThreadRegisterEvents :
    let s := { stT [] (fun th => { th with tmrEn := true, tmrTick := 2048, wdtEn := true, wdtInt := 2, wdtFrom := 0 }) with tb := 2048 }
    (s.thrOf c0 t0).tmrEn = true ∧ (s.thrOf c0 t0).tmrTick ≤ s.tb ∧ (s.thrOf c0 t0).wdtFrom + 1024 * (s.thrOf c0 t0).wdtInt.toNat ≤ s.tb ∧ (s.thrOf c0 t0).wdtFired = false ∧
      (s.thrOf c0 t0).st = .run ∧ some t0 ≠ some (1 : Thr) := by decide
theorem wit_ThreadRegisterEvents_early : 2047 < 2048 ∧ 2047 < ({ wdtInt := 2 } : Thread).wdtFrom + 1024 * 2 := by decide
/-- An interrupt one level above the mask, and one at it. -/
theorem wit_AsyncEntries :
    let th : Thread := { st := .run, ml := 3, swil := 4, xpend := 8 }
    th.waitOp = none ∧ th.bmov = none ∧ th.haltPend = false ∧ th.slot = none ∧ th.shadow = false ∧ th.notices = [] ∧ th.xpend = BitVec.ofNat 5 (2 ^ 3) ∧ th.arm = true ∧
      th.dfh = false ∧ th.ml < th.intrLevel 3 ∧ ({ th with swil := 3 } : Thread).intrLevel 3 ≤ th.ml := by decide
theorem wit_AsyncEntries_fault :
    let th : Thread := { st := .run, ml := 6, notices := [{ code := 0x23, async := true }] }
    th.xpend = 0 ∧ th.dfh = false ∧ th.ml < 7 ∧ th.arm = true := by decide

/-- Thread 2 idle and open to handlers, with a message of endpoint 6 in ring 4. -/
def sH : State :=
  st [] fun k => { k.setThread 2 { st := .idle, disp := true } with
    dispen := true, chi := [(6, { fsm := { en := true, st := .on }, ring := 4, epoch := 4, haddr := 0x800, hmode := true })],
    rings := [(4, { fsm := { en := true, st := .on }, size := 8, ckind := 1, msgs := [⟨3, 3, 6, 4, 20, 1, 5, 7, .undispatched⟩] })] }

theorem wit_HandlersAndWaits :
    (sH.coreAt 0).dispen = true ∧ bestOffer (sH.coreAt 0) = some (4, ⟨3, 3, 6, 4, 20, 1, 5, 7, .undispatched⟩) ∧ idleThread (sH.env 0) (sH.coreAt 0) = some 2 ∧
      bestOffer ((st []).coreAt 0) = none := by decide
theorem wit_HandlersAndWaits_waits :
    let s := st [] fun k => { k.setThread 0 { st := .wait, wcause := .counter, waitOp := some (.ctr (qWord 4 0 0 0 3 47)), regs := [(3, tint 6)] } with sc := [(47, 6)] }
    (s.thrOf c0 t0).st = .wait ∧ (s.thrOf c0 t0).reg 3 = tint 6 ∧ (6 : Word).toNat ≤ ((s.coreAt 0).scAt 47).toNat ∧ (s.coreAt 0).scBroken 47 = false ∧ ((s.coreAt 0).scAt 46).toNat < 6 := by decide
theorem wit_CoreControl :
    sR.debugAllowed 0 = false ∧ (sR.coreAt 0).lock = false ∧ (sR.coreAt 0).dma0.run = none ∧ (sR.coreAt 0).dma0.abpend = false ∧
      ((st [] fun k => { k with lock := true }).coreAt 0).lock = true := by decide
theorem wit_CoreControl_debug : ({ sR with fuses := { lc := 1 } } : State).debugAllowed 0 = true := by decide
/-- The shortest period, one shorter, and a thread that the core does not have. -/
theorem wit_CountersAndPace :
    let p : Pace := { per := 256, maint := 4096, tmask := 1 }
    ¬(p.per < 256 ∨ 1048576 < p.per ∨ (p.maint ≠ 0 ∧ (p.maint < 64 ∨ 4096 < p.maint))) ∧ p.mode = false ∧ p.held = [] ∧ (255 : Nat) < 256 ∧ (sR.env 0).nthr ≤ 7 := by decide
theorem wit_CountersAndPace_boundary :
    let p : Pace := { mode := true, t0 := 100, per := 256 }
    p.t0 ≤ 100 ∧ 100 < p.t0 + p.per ∧ p.held = [] ∧ p.tmask = 0 ∧ p.maint = 0 ∧ p.work = 0 ∧ p.bnext = 0 ∧ 99 < p.t0 + p.bnext * p.per := by decide

/-! ## Witnesses: engines, rings, DMA channels and what reaches a core -/

theorem wit_EngineRecovery :
    let g : Eng := { halt := true, hcause := 1, parked := true, q := List.replicate 31 { qw := [] }, stage := [(0, BitVec.ofNat 64 (encTrel 3))] }
    let s := st [] fun k => { k with mxe := { eng := g } }
    (s.coreAt 0).held = false ∧ (s.env 0).vcore = false ∧ g.halt = true ∧ g.parked = true ∧ (s.coreAt 0).rings = [] ∧ (∀ y ∈ g.q, y.trk = []) ∧ g.q.length < 32 ∧
      pushFits 0 (g.staging 4) = true ∧ pushRanges (s.env 0) (s.coreAt 0) 0 (g.staging 4) = [] := by decide
theorem wit_EngineRecovery_vcore : (({ cores := [(3, { held := false })] } : State).env 3).vcore = true ∧ (({ cores := [(3, { held := false })] } : State).coreAt 3).held = false := by decide
theorem wit_EngineWindows :
    let s := st [] fun k => { k with vxe := { eng := { parked := true } }, mxe := { eng := { parked := true } } }
    (s.coreAt 0).vxe.eng.parked = true ∧ (s.coreAt 0).vxe.v.wf = true ∧ (s.env 0).vcore = false ∧ (s.coreAt 0).mxe.eng.parked = true ∧ (s.coreAt 0).mxe.tagOf (s.coreAt 0).mxe.tile = none ∧
      (sR.coreAt 0).vxe.eng.parked = false ∧ (sR.coreAt 0).vxe.eng.halt = false := by decide
theorem wit_EngineStarts :
    let h : QEnt := { qw := [BitVec.ofNat 64 (encTrel 3), 0, 0, 0] }
    let s := st [] fun k => { k with mxe := { eng := { q := [h] } } }
    (s.coreAt 0).held = false ∧ s.dead = false ∧ s.pins.throttle = false ∧ ((s.coreAt 0).eng 0).parked = false ∧ ((s.coreAt 0).eng 0).parkReq = false ∧ ((s.coreAt 0).eng 0).halt = false ∧
      h.isCtr 0 = false ∧ h.started = false ∧ h.trk = [] ∧ usesRing 0 h = false ∧ tmovvHeld (s.coreAt 0) 0 h = false := by decide
theorem wit_EngineStarts_stopped : ({ sR with pins := { throttle := true }, pwr := { duty := 0 } } : State).pwr.duty = 0 ∧ ({ parkReq := true } : Eng).q = [] := by decide

def ring (st : EnSt) : Ring := { fsm := { en := true, st := st }, base := 8, size := 8, tail := 3, head := 1 }

/-- A ring that takes its last free unit without wrapping, and one that has no room. -/
theorem wit_Rings :
    let s := st [] fun k => { k with rings := [(2, ring .starting), (3, { ring .starting with size := 0 })] }
    (s.coreAt 0).held = false ∧ ((s.coreAt 0).ringAt 2).fsm.st = .starting ∧ ((s.coreAt 0).ringAt 2).fsm.en = true ∧ ringRefused (s.env 0) (s.coreAt 0) 2 = false ∧
      ringRefused (s.env 0) (s.coreAt 0) 3 = true ∧ (ring .on).pkind = 0 ∧ (ring .on).ckind ≠ 1 ∧ (ring .on).owed = 0 ∧ (ring .on).fill + 60 ≤ (ring .on).cap ∧
      (ring .on).tail + 60 < (ring .on).cap ∧ (ring .on).cap - (ring .on).fill < 63 ∧ (ring .stopping).fsm.pend = false := by decide
theorem wit_Rings_covered :
    let s := st [] fun k => { (k.trkTake true 1024 128 true).1 with rings := [(2, ring .stopping)] }
    (s.coreAt 0).conflict true (8 * 128) (8 * 128) true = true := by decide
theorem wit_DmaChannels :
    let h : QEnt := { qw := List.replicate 12 0 ++ [BitVec.ofNat 64 (encDmago 1 2)] }
    let m : Dma := { fsm := { en := true, st := .stopping }, eng := { q := [h] }, run := some { t0 := 3, abort := some 1, status := some [] } }
    let s := st [] fun k => { k with dma0 := m, qown := 0x8888 }
    (s.coreAt 0).rings = [] ∧ h.isCtr 2 = false ∧ h.trk = [] ∧ (m.run.map DmaRun.bursts) = some [] ∧ (s.coreAt 0).owner (s.env 0) 2 = some 0 ∧ m.fsm.pend = false ∧ m.run ≠ none := by decide

/-- A transfer of 64 bytes from 128 to the scratchpad's byte 8207. -/
def mv : QEnt := { qw := [saCore 5 1 0 128, saCore 4095 1 0 8207, 63, 0, 0, 0, 0, 0, 0, 0, 0, 0, BitVec.ofNat 64 (encDmago 1 2)] }
def sMv : State :=
  st [] fun k => { k with dma0 := { fsm := { en := true, st := .on }, eng := { q := [mv, mv] }, run := some { t0 := 3 } }, spad := { bytes := [(128, 1), (191, 9)] } }

theorem wit_DmaMoves :
    let d := mv.desc
    sMv.dead = false ∧ sMv.pins.throttle = false ∧ (sMv.coreAt 0).trk.ents = [] ∧ (sMv.coreAt 0).pace.mode = false ∧ (sMv.coreAt 0).spad.bytes.wf = true ∧ mv.isCtr 2 = false ∧
      d.req = 0 ∧ d.cnt 0 = 1 ∧ d.cnt 1 = 1 ∧ d.cnt 2 = 1 ∧ d.run ≤ d.burst ∧ d.cen = false ∧ d.cpulse = 0 ∧ dmaEnd (sMv.env 0) d.src = .loc 128 ∧
      dmaEnd (sMv.env 0) d.dst = .loc 8207 ∧ 128 + d.run ≤ 8207 ∧ (∀ i, i < d.run → (sMv.coreAt 0).spad.poisonAt (128 + i) = false) := by decide

/-- Core 0 with the packet of the given body waiting for it. -/
def sPk (b : SvcBody) (f : Core → Core := id) : State :=
  { st [] f with svc := { inbox := [{ unit := unitOf 5 0, src := 9, addr := 0, xid := 4, back := saCore 9 1 7 0, body := b }] } }

/-- Core 0 with an item on stream 5 that has left the mesh for it, and a ring that binds stream 5 with all but one unit before its end. -/
def sItem (x : Item) : State :=
  let s := st [] fun k => { k with rings := [(2, { ring .on with pkind := 2, ckind := 0, stream := 5, tail := 62, head := 62 })], cho := [(1, { fsm := { en := true, st := .on }, epoch := 9, grant := 8 })] }
  s.setWire (nodeOf (s.phys 0)) 5 (x.flits 5)
theorem wit_ItemsAtCores_write :
    let s := sItem (.write 64 [1, 2] [])
    let q := (s.coreAt 0).ringAt 2
    (s.coreAt 0).held = false ∧ (s.egress (nodeOf (s.phys 0))).map (fun p => (itemOf p.1, (p.1.head?.map Flit.stream).getD 0, p.1.any Flit.ovf)) = some (.write 64 [1, 2] [], 5, false) ∧
      boundStream (s.coreAt 0) 5 = some 2 ∧ boundStream (s.coreAt 0) 6 = none ∧ q.tail + (2 + q.unit - 1) / q.unit < q.cap ∧ (2 + q.unit - 1) / q.unit ≤ q.cap - q.fill ∧ q.ckind ≤ 1 ∧
      (s.coreAt 0).spad.bytes.wf = true := by decide
theorem wit_ItemsAtCores_credit :
    let s := sItem (.credit 9 1 4)
    (s.egress (nodeOf (s.phys 0))).map (fun p => itemOf p.1) = some (.credit 9 1 4) ∧ ((s.coreAt 0).choAt 1).fsm.st = .on ∧ ((s.coreAt 0).choAt 1).epoch = 9 ∧
      (Item.credit 9 1 4).isWrite = false := by decide
theorem wit_ReadAnswers :
    let d := mv.desc
    let s := sPk (.readResp (List.replicate d.run 1) .raw []) fun k => { k with dma0 := { eng := { q := [mv] }, run := some { t0 := 0, started := d.run, count := 1, bursts := [{ idx := 0, first := 0, len := d.run, reads := [⟨4, 0, 0, d.run, false, 0⟩] }] } } }
    (s.coreAt 0).held = false ∧ (s.coreAt 0).rings = [] ∧ (s.coreAt 0).spad.bytes.wf = true ∧ s.egress (nodeOf (s.phys 0)) = none ∧ s.svc.inbox.map InMsg.unit = [unitOf s.chipId 0] ∧
      ((s.coreAt 0).dma 1).run = none ∧ mv.isCtr 2 = false ∧ mv.trk = [] ∧ d.cnt 0 = 1 ∧ d.cnt 1 = 1 ∧ d.cnt 2 = 1 ∧ 0 < d.run ∧ dmaEnd (s.env 0) d.dst = .loc 8207 ∧
      s.svc.inbox.map InMsg.xid = [4] := by decide
theorem wit_PacketsAtCores_none : (st []).svc.inbox = [] ∧ (st []).egress (nodeOf ((st []).phys 0)) = none := by decide
theorem wit_PacketsAtCores_load :
    let s := sPk (.readResp (List.replicate 8 1) .int []) fun k => k.setThread 0 { st := .wait, waitOp := some (.farData 31 3 0 0 4 0) }
    (s.svc.inbox.map InMsg.unit) = [unitOf s.chipId 0] ∧ (s.coreAt 0).rings = [] ∧ (s.thrOf c0 t0).st = .wait ∧ (s.thrOf c0 t0).waitOp = some (.farData 31 3 0 0 4 0) := by decide
theorem wit_PacketsAtCores_write :
    let s := sPk .ack fun k => { k with thr := [], writes := [{ xid := 4, issuer := 0, scope := 3, addr := 0, trk := some 0 }] }
    (s.coreAt 0).thr = [] ∧ (s.coreAt 0).dma0.run = none ∧ (s.coreAt 0).dma1.run = none ∧ (s.coreAt 0).writes.map FarWrite.xid = [4] ∧ s.svc.inbox.map InMsg.xid = [4] := by decide
theorem wit_PacketsAtCores_counter : saCounter (mkSa 5 2 0x808) = some 1 ∧ (sPk (.inc (mkSa 5 2 0x808) 7)).egress (nodeOf ((sPk .ack).phys 0)) = none := by decide
theorem wit_ChannelPackets_out :
    let s := sPk (.grant 63 9 true 2 8) fun k => { k with cho := [(63, { fsm := { en := true, st := .starting } })] }
    (s.svc.inbox.map InMsg.unit) = [unitOf s.chipId 0] ∧ s.egress (nodeOf (s.phys 0)) = none ∧ ((s.coreAt 0).choAt 63).fsm.st = .starting ∧ ((s.coreAt 0).choAt 63).fsm.en = true := by decide
theorem wit_ChannelPackets_open :
    let s := sPk (.closeNotice 63 9 false) fun k => { k with cho := [(63, { fsm := { en := true, st := .on }, epoch := 9, grant := 8 })] }
    ((s.coreAt 0).choAt 63).fsm.st = .on ∧ ((s.coreAt 0).choAt 63).fsm.pend = false ∧ ((s.coreAt 0).choAt 63).epoch = 9 ∧ ((s.coreAt 0).choAt 63).epoch ≠ 10 := by decide
/-- An endpoint whose share is all that its ring still has, and one more. -/
theorem wit_ChannelPackets_in :
    let s := sPk (.openReq 63 9 7 1 false) fun k => { k with
      chi := [(63, { fsm := { en := true, st := .starting }, ring := 2, share := 64 })], rings := [(2, { ring .on with pkind := 1, ckind := 1, crkind := 1 })] }
    let y := (s.coreAt 0).chiAt 63
    let g := (s.coreAt 0).ringAt y.ring
    y.fsm.st = .starting ∧ y.fsm.en = true ∧ y.dyn = false ∧ g.fsm.st = .on ∧ g.pkind = 1 ∧ g.crkind = 1 ∧ g.ckind ≤ 1 ∧ 1 ≤ y.share ∧
      y.share + sharesOf (s.coreAt 0) y.ring 63 ≤ g.cap ∧ g.cap < y.share + 1 + sharesOf (s.coreAt 0) y.ring 63 := by decide
theorem wit_ChannelPackets_close :
    let s := sPk (.closeReq 63 9 9 7 1) fun k => { k with chi := [(63, { fsm := { en := true, st := .on }, ring := 2, epoch := 9, peer := some ⟨9, 7, 1⟩ })] }
    ((s.coreAt 0).chiAt 63).fsm.st = .on ∧ ((s.coreAt 0).ringAt 2).fsm.st = .off ∧ ((s.coreAt 0).chiAt 63).peer = some ⟨9, 7, 1⟩ ∧ ((s.coreAt 0).chiAt 63).epoch.toNat = 9 := by decide
def msg64 : Msg := { epoch := 9, chi := 63, seq := 1, cho := 1, chip := 9, lcid := 7, psn := false, data := List.replicate 64 1 }
theorem wit_MessagesAndEndpoints_out :
    let o : OutMsg := { cho := 63, dyn := true, stream := 0, dst := saCore 9 1 7 0, dchi := 1, epoch := 9, msg := some msg64 }
    ((st [] fun k => { k with out := [o] }).coreAt 0).out = [o] ∧ o.msg = some msg64 ∧ o.dyn = true ∧ ((st []).coreAt 0).out = [] := by decide
theorem wit_MessagesAndEndpoints_in :
    let s := sPk (.message msg64) fun k => { k with
      chi := [(63, { fsm := { en := true, st := .on }, ring := 2, epoch := 9 })], rings := [(2, { ring .on with pkind := 1, ckind := 1, crkind := 1 })] }
    let z := (s.coreAt 0).chiAt 63
    let q := (s.coreAt 0).ringAt z.ring
    s.egress (nodeOf (s.phys 0)) = none ∧ z.fsm.st = .on ∧ z.epoch.toNat = 9 ∧ q.fsm.st = .on ∧ q.ckind = 1 ∧ q.slotKind = false ∧ msgUnits false 64 ≤ q.cap - q.fill ∧
      q.tail + msgUnits false 64 < q.cap ∧ (s.coreAt 0).spad.bytes.wf = true ∧ ((s.coreAt 0).chiAt 62).fsm.st = .off ∧ ((s.coreAt 0).choAt 62).fsm.st = .off := by decide
/-- An OPEN endpoint that knows its peer, with a message not dispatched, and its ring off. -/
theorem wit_MessagesAndEndpoints_disable :
    let s := st [] fun k => { k with chi := [(63, { fsm := { en := true, st := .on }, ring := 2, epoch := 65535, peer := some ⟨9, 7, 1⟩ })] }
    (s.coreAt 0).held = false ∧ ((s.coreAt 0).chiAt 63).fsm.st = .on ∧ ((s.coreAt 0).ringAt 2).fsm.st = .off ∧ ((s.coreAt 0).chiAt 63).epoch + 1 = 0 := by decide
theorem wit_ChannelPackets_abandon :
    let s := sPk (.abandon 63 9 7 1) fun k => { k with chi := [(63, { fsm := { en := true, st := .on }, ring := 2, epoch := 9, peer := some ⟨9, 7, 1⟩ })] }
    ((s.coreAt 0).chiAt 63).fsm.st = .on ∧ ((s.coreAt 0).ringAt 2).fsm.st = .off ∧ ((s.coreAt 0).chiAt 63).peer = some ⟨9, 7, 1⟩ ∧ ((s.coreAt 0).chiAt 63).peer ≠ some ⟨9, 7, 2⟩ := by decide
theorem wit_ItemsRoundTrip : (65535 : Nat) < 65536 ∧ (List.replicate 4096 (0 : Byte)).length ≤ 4096 := ⟨by decide, Nat.le_of_eq List.length_replicate⟩

/-! ## Witnesses: barrier lines, links and time -/

/-- Chip 5 with port 2 as given. -/
def sK (p : Lnk) (f : State → State := id) : State := f { chipId := 5, tb := 200000, lnk := [(2, p)] }
def onPort : Lnk := { fsm := { en := true, st := .on } }

/-- Two participants of line 3 at its root: both have arrived, or the second has not. -/
def sLine (second : BitVec 8) : State :=
  { cores := [(0, { held := false, part := 8, arrive := 8 }), (7, { held := false, part := 8, arrive := second })], blx := [(3, { isLocal := true, root := true })] }

theorem wit_BarrierLines :
    ((sLine 8).line 3).root = true ∧ ((sLine 8).line 3).isLocal = true ∧ ((sLine 8).line 3).down = 0 ∧ ((sLine 8).line 3).brk = false ∧
      (∃ p ∈ (sLine 8).cores, p.2.part.getLsbD 3 = true) ∧ ((sLine 8).cores.map Prod.fst).Pairwise (· < ·) ∧
      (∀ p ∈ (sLine 8).cores, p.2.part.getLsbD 3 = true → p.2.arrive.getLsbD 3 = true) := by decide
theorem wit_BarrierLines_waits : ∃ p ∈ (sLine 0).cores, p.2.part.getLsbD 3 = true ∧ ((sLine 0).coreAt p.1).arrive.getLsbD 3 = false := by decide
theorem wit_BarrierLines_up :
    let s := { sLine 8 with blx := [(3, { isLocal := true, upv := true, up := 1 })] }
    s.dieArrived 3 = true ∧ (s.line 3).root = false ∧ (s.line 3).upv = true ∧ (s.line 3).sent = false ∧ (s.port (s.line 3).up).fsm.st ≠ .on := by decide
theorem wit_BarrierLines_write :
    let v : Word := 0xC00001
    ({} : State).cores = [] ∧ v.getLsbD 22 = true ∧ v.getLsbD 21 = false ∧ v.extractLsb' 8 8 = 0 ∧ (0x600000 : Word).getLsbD 22 = true ∧ (0x600000 : Word).getLsbD 21 = true ∧
      (({ root := true } : Blx)).up < 8 := by decide
/-- ARRIVE, COMPLETE and BROKEN of line 3 from port 2, generation parity 0 (Table 15-5). -/
theorem wit_BarrierUnits :
    let s := sK onPort fun s => { s with blx := [(3, { down := 4 })] }
    let t := sK onPort fun s => { s with blx := [(3, { upv := true, up := 2 })] }
    (s.port 2).up = true ∧ (s.port 2).uexp = 0 ∧ (0x8000 : BitVec 96).getLsbD 15 = true ∧ (0x8000 : BitVec 96).getLsbD 12 = (s.line 3).parity ∧ (s.line 3).down.getLsbD 2 = true ∧
      (∀ m, m < 8 → m ≠ 3 → (s.line m).down = 0 ∧ (s.line m).upv = false) ∧ (0x4000 : BitVec 96).getLsbD 14 = true ∧ (t.line 3).upv = true ∧ (t.line 3).up = 2 ∧
      (0x2000 : BitVec 96).getLsbD 13 = true ∧ (t.line 3).brk = false ∧ (t.line 3).down = 0 ∧ 128 ≤ (254 + 255 - (s.port 2).uexp) % 255 := by decide
theorem wit_LinkCells : onPort.up = true ∧ onPort.resend = [] ∧ onPort.tx1 = [] ∧ (sK onPort).wire (linkNode 2) 5 = [] ∧ ({} : Lnk).up = false ∧ onPort.held = [] := by decide
/-- A VL1 cell with the last credit; acknowledgements owed for just 512 ns and 100 µs. -/
theorem wit_LinkCells_sends :
    let p : Lnk := { onPort with tx1 := [.ack 0 1 2 3], sent1 := 65535, free1 := 65535 }
    p.fsm.st = .on ∧ p.tx1 = [.ack 0 1 2 3] ∧ p.sent1 = p.free1 ∧ p.sent1 < 65536 := by decide
theorem wit_LinkCells_late :
    let p : Lnk := { onPort with held := [(⟨0, 0, .idle⟩, 15)], rpAt := 199488, progAt := 100000 }
    p.held = [(⟨0, 0, .idle⟩, 15)] ∧ p.rpAt + 512 ≤ (sK p).tb ∧ p.progAt + 100000 ≤ (sK p).tb ∧ p.fsm.pend = false ∧ (∀ h ∈ p.held, h.2 < 16) := by decide
/-- Eight cells freed since the last report, over the counter's end. -/
theorem wit_LinkCells_credit :
    let p : Lnk := { onPort with freed0 := 3, told0 := 65531 }
    p.up = true ∧ p.rx0 = [] ∧ p.fsm.st = .on ∧ p.freed0 < 65536 ∧ 8 ≤ (p.freed0 + 65536 - p.told0) % 65536 := by decide
theorem wit_LinkUnits :
    let v : Urgent := { kind := 4, body := 0 }
    let p : Lnk := { onPort with gap := 4, uready := [v] }
    p.up = true ∧ p.holds = false ∧ p.uheld = [] ∧ p.uheld.length < 32 ∧ p.uready = [v] ∧ v.useq = 255 ∧ (sK p).mc.chipsDown = [] ∧ p.fsm.pend = false ∧ p.uexp = 0 ∧
      (0x10000 : BitVec 96).getLsbD 16 = true ∧ (0x10000 : BitVec 96).getLsbD 17 = false ∧ 3 < 4 := by decide
theorem wit_LinkPorts :
    let s := sK { fsm := { en := true, st := .starting } }
    let x : Training := { peerChip := 9 }
    (s.port 2).fsm.st = .starting ∧ (s.port 2).fsm.en = true ∧ x.lanes = [] ∧ x.latency = true ∧ (s.port 2).fec ≠ 2 ∧ x.verified = true ∧ x.noQuote = false ∧ x.debug = false ∧
      (s.brg.topo.getD {}).pinned.contains 2 = false ∧ x.peerChip ≠ s.chipId ∧ 2 ≤ ({ lanes := [0, 8] } : Training).lanes.length := by decide
theorem wit_LinkPorts_stop :
    let p : Lnk := { fsm := { en := false, st := .stopping }, held := [(⟨0, 0, .idle⟩, 1)], stopAt := 190001 }
    p.fsm.st = .stopping ∧ p.held ≠ [] ∧ (sK p).tb < p.stopAt + 10000 ∧ ({ fsm := { st := .stopping } } : Lnk).held = [] := by decide
theorem wit_LinkPorts_spare :
    let p : Lnk := { onPort with sparen := true }
    p.up = true ∧ p.laneUsed 7 = true ∧ p.swap = none ∧ p.lmap = [] ∧ ({ p with lmap := [(7, 8)], spared := true } : Lnk).laneUsed 8 = true ∧ ({ fec := 1 } : Lnk).fec = 1 := by decide
theorem wit_LinkPorts_present : ({ brg := { umap := { ports := 255 } } } : State).portPresent 7 = true ∧ ({} : State).portPresent 7 = false := by decide
theorem wit_TimeSync :
    let s := sK onPort fun s => { s with tbr := { beats := 199, upv := true, up := 2 } }
    s.tbr.beats < s.tb / 1000 ∧ (s.port 2).up = true ∧ s.tbr.upv = true ∧ s.tbr.up = 2 ∧ s.tbr.root = false ∧ s.tbr.state = 0 ∧ s.job.started = false ∧
      ¬(({ s with tb := 199999 } : State).tb / 1000 > s.tbr.beats) := by decide
/-- The third missed beacon, and the end of holdover, to the tick. -/
theorem wit_TimeSync_holdover :
    let t : Tbr := { upv := true, up := 2, state := 2, lastAt := 197000, holdAt := 0 }
    t.lastAt + 3000 ≤ 200000 ∧ ¬(t.lastAt + 3000 ≤ 199999) ∧ ({ t with state := 3 } : Tbr).holdAt + 1000000 ≤ 1000000 := by decide
theorem wit_TimeSync_edge :
    let t : Tbr := { root := true, syncEn := true, steparm := true, interval := 1000, edgeAt := 197000 }
    t.root = true ∧ t.syncEn = true ∧ t.steparm = true ∧ t.edgeAt + 3 * t.interval ≤ 200000 ∧ ¬(t.edgeAt + 3 * t.interval ≤ 199999) := by decide
theorem wit_TimeSync_delay :
    let u : Urgent := { kind := 8, body := 0x100000000000000000000 }
    u.kind = 8 ∧ u.body.getLsbD 80 = true ∧ ({ onPort with asking := some 7 } : Lnk).asking = some 7 := by decide
theorem wit_TimeSync_role : (0x30 : Word).getLsbD 5 = true ∧ (0x30 : Word).getLsbD 4 = true ∧ (0x27 : Word).getLsbD 4 = false ∧ (0x17 : Word).getLsbD 5 = false := by decide

/-! ## Witnesses: the mesh, the service network and the stacks -/

/-- A stream table word: input, output mask, stream (Table 12-4). -/
def stw (i o n : Nat) : Word := pack [(1, 63, 1), (i, 60, 3), (o, 55, 5), (n, 0, 10)]
def fl (n : Nat) (hd : Bool := false) : Flit := { stream := n, hd := hd, tr := false, data := List.replicate 64 1 }

/-- Chip 5 after bring-up with node 100 as given. -/
def sN (r : Router) (f : State → State := id) : State :=
  f { tb := 5000, chipId := 5, brg := { phase := 9, umap := { ports := 255, sites := 63, clusters := BitVec.ofNat 48 (2 ^ 48 - 1) } }, routers := [(100, r)] }
def rOn (f : Router → Router := id) : Router :=
  f { fsm := { en := true, st := .on }, stab := [(0, stw 3 2 40), (1, stw 0 2 44)], ports := [(1, { pst := 1, pc := 7 })] }

theorem wit_RouterControl :
    let s := sN { fsm := { en := true, st := .starting }, stab := [(0, stw 3 2 40)] }
    (s.router 100).fsm.st = .starting ∧ (s.router 100).fsm.en = true ∧ s.routeRefused 100 = false ∧ ({ fsm := { st := .stopping } } : Router).ports = [] ∧
      (0x7F8 : BitVec 14).toNat < 0x800 ∧ 0x800 ≤ (0x2FF8 : BitVec 14).toNat ∧ (0x2FF8 : BitVec 14).toNat < 0x3000 := by decide
/-- A router of an absent cluster. -/
theorem wit_RouterControl_refused : ({ routers := [(100, { fsm := { en := true, st := .starting }, stab := [(0, stw 3 2 40), (1, stw 3 2 40)] })] } : State).routeRefused 100 = true := by decide
theorem wit_RouterControl_busy : ∃ q ∈ (rOn).ports, q.2.pst = 1 := by decide
/-- The watchdog's window has passed at this tick. -/
theorem wit_RouterControl_watchdog :
    let s := sN (rOn fun r => { r with wdog := 4, sched := [(263, pack [(1, 62, 2), (40, 48, 10), (2, 0, 8)])], ports := [(1, { pst := 1, pc := 7, since := 904 })] })
    (s.router 100).wdog ≠ 0 ∧ ((s.router 100).ready 1).told = false ∧ s.portWaits 100 1 = true ∧ ((s.router 100).ready 1).since + 1024 * (s.router 100).wdog.toNat ≤ s.tb := by decide
theorem wit_MeshForwarding_arrival :
    let s := sN rOn fun s => { s with wires := [(803, [fl 40])] }
    s.wire 100 3 = [fl 40] ∧ (s.router 100).stabOf 40 = some (stw 3 2 40) ∧ stabIn (stw 3 2 40) = 3 ∧ stabOut (stw 3 2 40) ≠ 0 ∧ (s.router 100).stabOf 41 = none ∧
      (s.router 100).streamsAt 2 = [] ∧ s.wire 100 0 = [] := by decide
theorem wit_MeshForwarding :
    let e := pack [(1, 62, 2), (40, 48, 10), (2, 0, 8)]
    let s := sN (rOn fun r => ({ r with sched := [(263, e)] }).setBuf 3 [{ f := fl 40 }])
    let r := s.router 100
    s.dead = false ∧ r.fsm.st = .on ∧ (r.out 1).pst = 1 ∧ e = r.entry 1 (r.out 1).pc ∧ schedKind e = 1 ∧ meshNext 100 1 = some (101, 3) ∧
      r.stabOf (schedStream e) = some (stw 3 2 40) ∧ stabOut (stw 3 2 40) = 2 ^ 1 ∧ r.failed = [] ∧ schedStream e = 40 ∧ s.credit 101 3 = true ∧ (r.out 1).sent + 1 < schedCount e ∧
      ({ s with wires := [(811, List.replicate 32 (fl 40))] } : State).credit 101 3 = false := by decide
theorem wit_MeshForwarding_off : (sN {}).portRuns 100 1 = false := by decide
theorem wit_MeshReduction :
    let e := pack [(2, 62, 2), (40, 48, 10), (44, 32, 10), (50, 16, 10), (1, 12, 2), (2, 0, 8)]
    let s := sN (rOn fun r => (({ r with sched := [(263, e)] }).setBuf 3 [{ f := fl 40 }]).setBuf 0 [{ f := fl 44 true }])
    let r := s.router 100
    e = r.entry 1 (r.out 1).pc ∧ schedKind e = 2 ∧ s.credit 101 3 = true ∧ r.failed = [] ∧ r.oldest (schedStream e) 1 = some (fl 40) ∧ r.oldest (schedB e) 1 = some (fl 44 true) ∧
      (fl 40).hd ≠ (fl 44 true).hd ∧ (fl 40).hd = (fl 44).hd ∧ (fl 40).data.length = 64 := by decide

/-- A read of a register of the MC by core 7, numbered q, sent at the given tick. -/
def pkt (q sent tries : Nat) : SvcPkt :=
  { src := unitOf 5 7, dst := unitOf 5 unitMc, cls := 0, seq := q, addr := mkSa 5 4 0x20, back := saCore 5 1 7 0, xid := 9, body := .read (mkSa 5 4 0x20) 8, sentAt := sent, tries := tries }
def sV (p : SvcPkt) : State := sN {} fun s => { s with svc := { out := [p], expect := [(seqKey p.src p.dst p.cls, 3)] } }

theorem wit_ServiceNetwork :
    let p := pkt 3 904 6
    (sV p).svc.out = [p] ∧ p.arrived = false ∧ p.foreign = false ∧ unitChip p.dst = (sV p).chipId ∧ unitLocal p.dst = unitMc ∧ saOff p.addr % 8 = 0 ∧
      mget 0 (sV p).svc.expect (seqKey p.src p.dst p.cls) = 3 ∧ p.sentAt + 4096 ≤ (sV p).tb ∧ p.tries < 7 ∧ ¬((pkt 3 905 7).sentAt + 4096 ≤ (sV p).tb) ∧ 7 ≤ (pkt 3 904 7).tries ∧
      (sV p).unitAnswers p.dst p.addr = true := by decide
theorem wit_ServiceNetwork_numbers : (2 < 3 ∧ 3 - 2 ≤ 32768) ∧ (3 < 4 ∧ 4 < 3 + 32768) ∧ ({ pkt 3 0 0 with arrived := true } : SvcPkt).arrived = true := by decide

/-- Stack 2 as given, with a write of 64 bytes at byte 64 waiting at its station 3. -/
def sM (k : Hbm) (f : State → State := id) : State :=
  sN {} fun s => f { s with hbm := [(2, k)], svc := { inbox := [{ unit := unitOf 5 (unitHbm 2 3), src := unitOf 5 7, addr := 0, back := saCore 5 1 7 0, xid := 3, phys := some 64, body := .write 64 (List.replicate 64 1) [] false .raw }] } }
def hOn : Hbm := { fsm := { en := true, st := .on } }

theorem wit_StackAccess :
    (sM hOn).stk 2 = hOn ∧ hOn.winEnd ≤ (sM hOn).tb ∧ (sM hOn).egress (memNode 2 3) = none ∧ (sM hOn).svc.inbox.map InMsg.unit = [unitOf (sM hOn).chipId (unitHbm 2 3)] ∧
      (sM hOn).svc.inbox.map InMsg.phys = [some 64] ∧ 64 % 32 = 0 ∧ hOn.mark = [] ∧ hOn.mem.wf = true ∧ ((sM {}).stk 2).fsm.st = .off := by decide
theorem wit_StackAccess_window : (sM { hOn with winEnd := 5001 }).tb < 5001 ∧ (sN {}).svc.inbox = [] := by decide
theorem wit_StackMaintenance :
    let s := sM hOn fun s => { s with mc := { drip := { en := true, st := .on } }, tb := 4 * 3600 * 1000000000 }
    hOn.patrol = true ∧ s.mc.drip.st = .on ∧ s.pacedJob = false ∧ hOn.winEnd ≤ s.tb ∧ hOn.scrubWord + 1 < stackWords ∧ ({ hOn with scrubWord := stackWords - 1 } : Hbm).scrubWord + 1 = stackWords ∧
      hOn.late = false ∧ hOn.passFrom + 4 * 3600 * 1000000000 ≤ s.tb ∧ 85 < (86 : BitVec 8).toNat ∧ (85 : BitVec 8).toNat ≤ 85 ∧ hOn.doubled = false ∧ hOn.hotref = false := by decide
/-- The refresh window of a paced job, due at this tick. -/
theorem wit_StackMaintenance_paced :
    let s := sM hOn fun s => { s with tb := 4900, job := { paced := true, t0 := 1000, per := 300 }, hif := { job := 3 } }
    s.pacedJob = true ∧ s.job.per ≠ 0 ∧ s.job.t0 + (max hOn.due (s.job.t0 + 3900) - s.job.t0 + s.job.per - 1) / s.job.per * s.job.per = 4900 := by decide
theorem wit_RegionsAndStacks :
    let s := sM hOn fun s => { s with regions := [(4, { fsm := { en := true, st := .starting }, mode := 2, tgt := 2, size := 8192 }), (5, { fsm := { en := true, st := .starting } })] }
    (s.region 4).fsm.st = .starting ∧ (s.region 4).fsm.en = true ∧ s.regionRefused 4 = false ∧ s.regionRefused 5 = true ∧ s.sitePresent 2 = true ∧
      (∃ q ∈ s.regions, q.2.fsm.st ≠ .off ∧ 2 ∈ s.covered q.2) ∧ (sM hOn).regions = [] ∧ ({} : State).sitePresent 2 = false := by decide
/-- Two offsets at the ends of an entry that covers one stack. -/
theorem wit_TranslationInjective :
    let r : Region := { mode := 2, tgt := 2, vbase := 77, pbase := pcBlocks - 3, size := 3 * 256 * 32 }
    let p := (sN {}).coveredPcs r
    0 < p ∧ r.size % (256 * p) = 0 ∧ r.pbase + r.size / (256 * p) ≤ pcBlocks ∧ r.mode ≤ 3 ∧ r.vbase ≤ 77 ∧ 77 + 24575 < r.vbase + r.size := by decide
theorem wit_TranslationInjective_channel : ({ mode := 3, ch := 15 } : Region).ch < 16 ∧ 0 < (sN {}).coveredPcs { mode := 3, ch := 15 } := by decide

/-! ## Witnesses: power, host window and command ring -/

/-- Chip 5 after bring-up, with both halves on, changed by f. -/
def sU (f : State → State := id) : State := sN {} fun s => f { s with hif := { dev := 1, job := 2, bme := true, msixEn := true } }

theorem wit_PowerHalves :
    let s := sU fun s => { s with routers := [] }
    s.dead = false ∧ s.halfAsked true = false ∧ s.pwr.busy = false ∧ (s.half false).on = true ∧ s.cores = [] ∧ s.blx = [] ∧ s.regions = [] ∧
      (∀ p ∈ s.routers, p.2.crosses p.1 = false) ∧ (∀ b, (s.half b).drain = none) ∧ ({} : State).dead = false := by decide
theorem wit_PowerHalves_used : ∃ p ∈ ({ cores := [(4 * 72, { part := 1 })] } : State).cores, clEast (lcCluster p.1) = clEast 4 ∧ p.2.part ≠ 0 := by decide
/-- The drain of the East half, 20 µs old at this tick, and one tick younger with a packet still out. -/
theorem wit_PowerHalves_drain :
    let s := sU fun s => { s with tb := 21000, pwr := { s.pwr with busy := true, e := { s.pwr.e with drain := some 1000 } } }
    (s.half true).drain = some 1000 ∧ (s.half false).drain = none ∧ 1000 + 20000 ≤ s.tb ∧ 20999 < 1000 + 20000 := by decide
theorem wit_PowerHalves_on :
    let s := nxt (exec (.halfOffRequest true) (sU fun s => { s with routers := [] }))
    s.halfAsked true = true ∧ s.dead = false ∧ s.pwr.busy = true := by decide
theorem wit_PowerHalves_good :
    let s := sU fun s => { s with pwr := { s.pwr with busy := true, e := { s.pwr.e with on := false, vren := true } } }
    (s.half true).on = false ∧ (s.half true).vren = true ∧ s.pwr.busy = true ∧ s.halfAsked true = false := by decide
/-- A window over the limit, and one with margin for a step up. -/
theorem wit_Governor :
    let s := sU fun s => { s with tb := 1000000, pwr := { s.pwr with cap := 400, tlim := 100, w := { s.pwr.w with set := 600, tgt := 700 } } }
    s.dead = false ∧ s.pwr.ended < s.tb / 1000000 ∧ s.pwr.pover = false ∧ s.pwr.floorbrk = false ∧ s.job.paced = false ∧ s.pwr.cap * 1000 < 400001 + s.pwr.fixed * 1000 ∧
      s.pwr.tlim < 101 ∧ (0 + s.pwr.fixed * 1000) * 100 < 97 * (s.pwr.cap * 1000) ∧ 97 + 3 ≤ s.pwr.tlim ∧ (∃ b, (s.half b).set < (s.half b).tgt) := by decide
theorem wit_Governor_floor :
    let s := sU fun s => { s with tb := 1000000, job := { paced := true }, hif := { s.hif with job := 3 }, pwr := { s.pwr with cap := 250, w := { s.pwr.w with vp := 700, set := 700 }, e := { s.pwr.e with vp := 650, set := 650 } } }
    s.job.paced = true ∧ s.hif.job = 3 ∧ s.pwr.cap * 1000 < 250001 ∧ (∀ b, (s.half b).set ≤ (s.half b).vp + (s.half b).wear) := by decide
theorem wit_Governor_aging :
    let s := sU fun s => { s with mc := { drip := { en := true, st := .on }, dripFlags := 1 } }
    s.mc.drip.st = .on ∧ s.mc.dripFlags.getLsbD 0 = true ∧ s.job.paced = false := by decide
def win : InMsg := { unit := unitOf 5 7, src := 0, addr := mkSa 5 3 0x2000, back := saCore 5 1 7 0, xid := 3, body := .read (mkSa 5 3 0x2000) 8 }
theorem wit_HostWindow :
    let s := sU fun s => { s with hif := { s.hif with wins := [win], flush := [(6, 0)], reads := [(6, win)] } }
    s.hif.wins = [win] ∧ s.hif.bme = true ∧ s.hif.flush = [(6, 0)] ∧ s.hif.reads = [(6, win)] ∧ win.body = .read win.addr 8 ∧ (∀ p ∈ s.hif.flush, p.1 ≠ 7) ∧ (9 : Nat) ≠ 0 ∧
      ({ s.hif with flush := [(6, 1)], reads := [] } : Hif).flush = [(6, 1)] := by decide
theorem wit_HostWindow_bells :
    let s := sU fun s => { s with hif := { s.hif with job := 3, bells := [(0, 255)] }, cores := [(0, { held := false })] }
    s.hif.job = 3 ∧ s.hif.bells = [(0, 255)] ∧ (s.coreAt 0).held = false ∧ (sU).hif.job ≠ 3 := by decide
theorem wit_HostWindow_present : ({ sU with fuses := {} } : State).present 0 = true := by decide

/-- A command ring with one command to fetch and a completion ring with one free entry. -/
def sRing (w : List Word) (f : State → State := id) : State :=
  sU fun s => f { s with hif := { s.hif with cmdq := { en := true, log2n := 4, head := 15, tail := 0 }, cplq := { en := true, log2n := 4, head := 0, tail := 13 }, cmds := if w = [] then [] else [⟨w⟩] } }
/-- A command word 0: its tag and its operation (R546). -/
def cmd (op : Nat) (r : List Word) : List Word := pack [(7, 16, 16), (op, 0, 8)] :: r ++ List.replicate (7 - r.length) 0

theorem wit_CommandRing :
    let s := sRing []
    s.fetches = true ∧ 1 ≤ (HCmd.mk (cmd 7 [])).op ∧ (HCmd.mk (cmd 7 [])).op ≤ 7 ∧ 7 < (HCmd.mk (cmd 8 [])).op ∧ (HCmd.mk (cmd 0 [])).op = 0 ∧ s.hif.cmds = [] ∧ s.hif.owed = [] ∧ s.hif.bme = true ∧
      s.hif.cplq.en = true ∧ s.hif.msixEn = true ∧ (s.hif.cplq.tail + 2 ^ s.hif.cplq.log2n - s.hif.cplq.head) % 2 ^ s.hif.cplq.log2n + 1 < 2 ^ s.hif.cplq.log2n := by decide
theorem wit_CommandRing_off : ({} : State).hif.bme = false ∧ ({} : State).brg.phase < 3 := by decide
theorem wit_CommandRing_query :
    let c : HCmd := ⟨cmd 4 [0x1000]⟩
    (sRing (cmd 4 [0x1000])).hif.cmds = [c] ∧ c.op = 4 ∧ c.plain 1 = true ∧ (HCmd.mk (cmd 4 [0x1000, 1])).plain 1 = false ∧ (sRing []).hif.dev ≠ 0 := by decide
theorem wit_CommandRing_stop :
    let s := sRing (cmd 3 []) fun s => { s with hif := { s.hif with job := 3 } }
    (HCmd.mk (cmd 3 [])).op = 3 ∧ (HCmd.mk (cmd 3 [])).plain 0 = true ∧ s.hif.dev = 1 ∧ s.hif.job = 3 ∧ ((sRing []).hif.job ≠ 1 ∧ (sRing []).hif.job ≠ 3) := by decide
theorem wit_CommandRing_map :
    let c : HCmd := ⟨cmd 6 [0x1000, 0x2000, 0x30F]⟩
    c.op = 6 ∧ (sRing []).running = false ∧ c.plain 3 = true ∧ (c.word 1).toNat % 4096 = 0 ∧ (c.word 2).toNat % 4096 = 0 ∧ (c.word 3).extractLsb' 4 4 = 0 ∧ (c.word 3).extractLsb' 10 54 = 0 ∧
      (c.word 2).toNat ≠ 0 ∧ (0x1008 : Word).toNat % 4096 ≠ 0 := by decide

/-! ## Witnesses: jobs, host registers, apertures, bring-up and clusters -/

theorem wit_JobLife_load :
    let c : HCmd := ⟨cmd 1 [0x1000, 64]⟩
    let s := sRing c.words fun s => { s with hif := { s.hif with job := 0 } }
    s.hif.cmds = [c] ∧ c.op = 1 ∧ s.running = false ∧ c.plain 2 = true ∧ c.word 2 ≠ 0 ∧ s.hif.dev = 1 ∧ s.hif.job = 0 ∧ s.fuses.lc ≠ 0 ∧ s.hif.owed = [] ∧ s.pwr.w.on = true ∧ s.pwr.e.on = true ∧
      (sRing []).hif.job ≠ 0 := by decide
/-- An empty loadable for chip 5, of a header and an empty table (Tables 18-9 and 18-10). -/
theorem wit_JobLife_header : ∃ b : List Byte, (sRing []).headerGood b b.length = true ∧ tableGood b b.length [] = true ∧ numAt b 10 2 = 0 := by
  refine ⟨loadMagic ++ leBytes 8 1 ++ leBytes 8 128 ++ leBytes 8 1 ++ leBytes 8 4095 ++ List.replicate 88 0, ?_⟩
  decide +kernel
theorem wit_JobLife_start :
    let c : HCmd := ⟨cmd 2 [55000]⟩
    let s := sRing c.words
    s.hif.cmds = [c] ∧ c.op = 2 ∧ s.running = false ∧ c.plain 1 = true ∧ s.hif.dev = 1 ∧ s.hif.job = 2 ∧ s.tb + 50000 ≤ (c.word 1).toNat ∧ (54999 : Nat) < s.tb + 50000 := by decide
theorem wit_JobLife_tick : let s := sU fun s => { s with job := { start := some (7, 5000) } }; s.job.start = some (7, 5000) ∧ 5000 ≤ s.tb ∧ 4999 < 5000 ∧ s.job.toStart = [] := by decide
theorem wit_JobLife_exit : (1 : Word).extractLsb' 0 32 ≠ (0 : BitVec 32) ∧ 1 ≤ (sU).hif.job ∧ (sU).hif.job ≤ 3 := by decide
theorem wit_JobLife_reset :
    let c : HCmd := ⟨cmd 5 [0]⟩
    let w : HCmd := ⟨cmd 5 [1]⟩
    c.op = 5 ∧ c.resetGood = true ∧ (c.word 1).getLsbD 0 = false ∧ w.op = 5 ∧ (w.word 1).getLsbD 0 = true ∧ w.resetGood = true ∧ (HCmd.mk (cmd 5 [3])).resetGood = false ∧
      ({ job := 5 } : Hif).job = 5 ∧ (sRing c.words).hif.dev ≠ 3 := by decide
theorem wit_HostRegisters :
    (0x800000000000000C : Word).getLsbD 63 = true ∧ ((0x800000000000000C : Word).extractLsb' 0 4).toNat = 12 ∧ 12 < ((0x800000000000000D : Word).extractLsb' 0 4).toNat ∧
      ((0x8000000000000003 : Word).extractLsb' 0 4).toNat < 4 ∧ ((sU).hif.evq).en = false ∧ (7 : Word).toNat < 8 ∧ (sU).hif.msixEn = true ∧ (sU).hif.bme = true ∧ ({} : Hif).msixEn = false ∧
      3 ≤ (sU).brg.phase ∧ (sU).hif.owed = [] ∧ (sU).hif.msixPba = [] ∧ ({} : State).brg.phase = 0 := by decide
theorem wit_HostRegisters_retry : let s : State := { brg := { phase := 2 } }; 1 ≤ s.brg.phase ∧ s.brg.phase ≤ 2 ∧ s.brg.pushing = false ∧ s.hif.dev ≠ 3 := by decide
/-- A region over stack 2, and the last bytes of a core's aperture. -/
def sAp : State := sU fun s => { s with fuses := {}, hbm := [(2, hOn)], cls := [(0, { en := true, st := .on })], cores := [(0, { held := false, spad := ({} : Spad).setWord 8 (tint 1) })],
                                        regions := [(4, { fsm := { en := true, st := .on }, mode := 2, tgt := 2, size := 8192 })] }
theorem wit_Apertures :
    sAp.hif.dev = 1 ∧ (sAp.stk 2).fsm.st = .on ∧ (sAp.stk 2).mark = [] ∧ (sAp.runsOf unitPcie 0 8).isSome = true ∧ (sAp.runsOf unitPcie 8192 8) = none ∧ (sAp.stk 2).mem.wf = true ∧ sAp.hif.bar = [] ∧
      sAp.inWindow 2 = false ∧ (∃ hh key, sAp.runsOf unitPcie 0 8 = some [(0, hh, key, 8)] ∧ hh = 2 ∧ sAp.slotFree hh (keyPc key) = true ∧ sAp.meshFirst hh (keyPc key / 2) key 8 = false) :=
  ⟨by decide, by decide, by decide, by decide, by decide, by decide, by decide, by decide, 2, 0, by decide⟩
/-- A refresh window of the stack, and an access that waits before another. -/
theorem wit_Apertures_waits :
    let s : State := { sAp with hbm := [(2, { hOn with winEnd := 5001 })] }
    s.inWindow 2 = true ∧ s.runsOf unitPcie 0 8 = some [(0, 2, 0, 8)] ∧ (s.stk 2).fsm.st = .on ∧ ({ bar := [{ bar4 := true, read := true, addr := 0, len := 1 }] } : Hif).bar ≠ [] := by decide
theorem wit_Apertures_core :
    sAp.hif.job ≠ 5 ∧ sAp.present 0 = true ∧ (sAp.half (clEast (lcCluster 0))).on = true ∧ (sAp.cl (lcCluster 0)).st = .on ∧ 8 + 8 ≤ (sAp.env 0).spadBytes ∧
      (∀ i, i < 8 → (sAp.coreAt 0).spad.tagAt (8 + i) ≠ .empty ∧ (sAp.coreAt 0).spad.tagAt (8 + i) ≠ .poison) ∧ (sAp.coreAt 0).spad.bytes.wf = true ∧ 3072 * 524288 / 524288 = 3072 := by decide
theorem wit_ResetsAndBringup :
    let s : State := { brg := { phase := 2 }, nor := { }, hif := { dev := 0 } }
    s.hif.dev = 0 ∧ s.brg.pushing = false ∧ s.fuses.kill = false ∧ s.fuses.lc < 4 ∧ s.brg.straps % 2 = 0 ∧ ({} : State).brg.phase = 0 ∧ ({ s with fuses := { lc := 4 } } : State).fuses.lc = 4 := by decide
theorem wit_ResetsAndBringup_last :
    let s : State := { brg := { phase := 8, umap := { sites := 63, clusters := BitVec.ofNat 48 (2 ^ 48 - 1) } } }
    s.hif.dev = 0 ∧ s.brg.topo = none ∧ s.brg.hold = 0 ∧ s.mapShort = false ∧ (∀ k, k < 8 → (s.port k).miswired = false) := by decide
theorem wit_ResetsAndBringup_held : let s : State := { brg := { phase := 8, hold := 3, acc := 1 }, hif := { dev := 2 } }; s.brg.hold &&& ~~~(s.brg.acc ||| ((0x200 : Word).extractLsb' 8 5 &&& s.brg.hold)) = 0 ∧
    s.brg.hold &&& ~~~(s.brg.acc ||| ((0x100 : Word).extractLsb' 8 5 &&& s.brg.hold)) ≠ 0 := by decide
/-- Cluster 0 with its cores parked, or in the state given. -/
def sCl (st : EnSt) (f : State → State := id) : State := sU fun s => f { s with fuses := {}, cls := [(0, { en := true, st := st })] }
theorem wit_Clusters :
    (sCl .on).brg.umap.clusters.getLsbD 0 = true ∧ ((sCl .on).half (clEast 0)).on = true ∧ ((sCl .on).cl 0).st = .on ∧ ((sCl .starting).cl 0).en = true ∧ (sCl .starting).clPresent 0 = true ∧
      ({ sCl .starting with brg := {} } : State).clPresent 0 = false ∧ (sCl .on).dead = false ∧ mget 0 (sCl .on).mc.beats 0 < 2 := by decide
theorem wit_Clusters_parked : (sCl .stopping).present 0 = true ∧ ((sCl .stopping).coreAt 0).allParked ((sCl .stopping).env 0) = true ∧ ((sCl .stopping).cl 0).pend = false := by decide

/-! ## Witnesses: security, management, service, records and what every command keeps -/

/-- A token of the form of Table 20-8 without the key and signature, which end it. -/
def tok (ty arg serial nonce : Nat) (scope : Nat := 0) : List Byte :=
  tokenMagic ++ leBytes 2 1 ++ leBytes 2 ty ++ leBytes 4 arg ++ leBytes 16 serial ++ leBytes 32 nonce ++ leBytes 8 scope ++ List.replicate 5512 0

theorem wit_Tokens :
    (sU).serves = true ∧ (sU).brg.pushing = false ∧ (tok 1 0 0 0 7).length ≤ 32768 ∧ tokenForm (tok 1 0 0 0 7) = true ∧ tokenForm (tok 1 0 0 0 8) = false ∧ tokenType (tok 1 0 0 0 7) = 1 ∧
      (sU).hif.dev ≠ 0 ∧ numAt (tok 1 0 1 0) 16 16 ≠ (sU).fuses.serial.toNat ∧ numAt (tok 1 0 0 0) 16 16 = (sU).fuses.serial.toNat ∧ ({} : State).serves = false := by decide +kernel
theorem wit_Tokens_nonce :
    ∃ b : List Byte, tokenForm b = true ∧ tokenType b = 1 ∧ numAt b 16 16 = (sU).fuses.serial.toNat ∧ numAt b 32 32 ≠ (Config.nonce (sU).sec.nonce).toNat := by
  by_cases h : (Config.nonce (sU).sec.nonce).toNat = 0
  · exact ⟨tok 1 0 0 1, by decide +kernel, by decide +kernel, by decide +kernel, by rw [h]; decide +kernel⟩
  · exact ⟨tok 1 0 0 0, by decide +kernel, by decide +kernel, by decide +kernel, by
      have hz : numAt (tok 1 0 0 0) 32 32 = 0 := by decide
      rw [hz]; exact fun e => h e.symm⟩
/-- With a signature scheme that accepts this key, token and signature, and a nonce of zero, an edit token of a BLANK part is accepted: the values of the scheme are the model's open ones (log entry 6). -/
theorem wit_Tokens_accepted (hn : Config.nonce 0 = 0) (hk : Config.sha256 (sliceOf (tok 6 0 0 0) 128 60) = Config.vendorKey 0)
    (hv : Config.hssVerify (sliceOf (tok 6 0 0 0) 128 60) ((tok 6 0 0 0).take 128) (sliceOf (tok 6 0 0 0) 188 5396) = true) :
    ({ sU with fuses := { lc := 1 } } : State).tokenError (tok 6 0 0 0) true = 0 := by
  have h1 : tokenForm (tok 6 0 0 0) = true := by decide +kernel
  have h2 : numAt (tok 6 0 0 0) 16 16 = 0 := by decide
  have h3 : numAt (tok 6 0 0 0) 32 32 = 0 := by decide
  have h4 : tokenType (tok 6 0 0 0) = 6 := by decide
  have h5 : tokenSlot (tok 6 0 0 0) = 0 := by decide
  have h9 : (sU).sec.nonce = 0 := by decide
  generalize tok 6 0 0 0 = b at *
  simp [State.tokenError, State.nonce, State.tokenState, keyIsSlot, Fuses.slotGood, h1, h2, h3, h4, h5, h9, hn, hk, hv]

/-- A firmware image without code, of slot 0 and security version 0 (Table 20-3). -/
def img : List Byte := fwMagic ++ leBytes 4 1 ++ List.replicate 5640 0

theorem wit_Tokens_push : (511 : Nat) < 512 ∧ ({ sU with brg := { pushing := true } } : State).serves = true ∧ (sU).mbx.push = [] ∧ (sU).mbx.pushLen = 0 ∧ (sU).imageGood [] = false ∧ (sU).brg.straps < 2 := by decide
theorem wit_Tokens_image (hk : Config.sha256 (sliceOf img 28 60) = Config.vendorKey 0) (hd : Config.sha256 [] = 0)
    (hv : Config.hssVerify (sliceOf img 28 60) (img.take 256) (sliceOf img 256 5396) = true) : (sU).imageGood img = true ∧ img.length ≤ 32768 := by
  have h1 : (img.take 8 == fwMagic && numAt img 8 2 == 1 && numAt img 17 3 == 0 && decide (numAt img 16 1 ≤ 1) && zerosAt img 120 136 && (sU).fuses.slotGood (fwSlot img)) = true := by decide
  have h2 : fwSlot img = 0 := by decide
  have h4 : (decide ((sU).fuses.svn ≤ fwSvn img) && decide (fwSvn img ≤ 64)) = true := by decide
  have h6 : img.length = 5652 + numAt img 20 8 := by decide +kernel
  have h7 : img.drop 5652 = [] := by decide +kernel
  have h8 : numAt img 88 32 = 0 := by decide
  refine ⟨?_, by decide +kernel⟩
  generalize img = b at *
  simp only [Bool.and_eq_true] at h1 h4
  obtain ⟨⟨⟨⟨⟨g1, g2⟩, g3⟩, g4⟩, g5⟩, g6⟩ := h1
  rw [h2] at g6
  unfold State.imageGood keyIsSlot
  rw [h2, h7, h8, hk, hd, hv, g1, g2, g3, g4, g5, g6, h4.1, h4.2]
  simp [h6]

theorem wit_Management :
    (sU).serves = true ∧ (sU).brg.pushing = false ∧ (List.replicate 32 (7 : Byte)).length = 32 ∧ (sU).hif.dev ≠ 0 ∧ 1 ≤ (sU).fuses.lc ∧ (sU).fuses.lc ≤ 3 ∧ ({ idok := true, left := 1 } : SecBlk).left ≠ 0 ∧
      ({ claims := 8191 } : Fuses).claims < 8192 ∧ (sU).mbx.busy = false ∧ ({} : State).serves = false ∧ ({} : Hif).job = 0 ∧ (sU).fmapInUse = none ∧ (sU).fuses.lc = 2 ∧ (sU).sec.debug = false := by decide
/-- A certificate read in the mailbox, with a request of no bytes (Table 23-5). -/
theorem wit_Management_mailbox :
    let m : Mbx := { busy := true, req := 7 }
    m.busy = true ∧ (m.req.extractLsb' 0 8).toNat = 7 ∧ (m.req.extractLsb' 16 16).toNat ≤ 32768 := by decide
theorem wit_Management_svn :
    let s := sU fun s => { s with sec := { commit := true, image := 1 }, fuses := { svn := 0 } }
    s.hif.dev = 1 ∧ s.fuses.lc = 2 ∧ s.sec.commit = true ∧ s.fuses.svn < s.sec.image ∧ s.mc.fatal = false := by decide
theorem wit_Management_fieldmap :
    let c : HCmd := ⟨cmd 7 [0x1000, 65536]⟩
    let s := sRing c.words
    s.hif.cmds = [c] ∧ c.op = 7 ∧ s.running = false ∧ c.plain 2 = true ∧ 0 < (c.word 2).toNat ∧ (c.word 2).toNat ≤ 65536 ∧ s.hif.dev = 1 ∧ s.sec.edit = none ∧ fmapValid s.fuses [] = false ∧
      (HCmd.mk (cmd 7 [0x1000, 1, 1])).plain 2 = false := by decide
/-- A field map of no entries with sequence number 1 and its own MAC, whatever the MAC (Table 19-5). -/
def fmBody : List Byte := fmapMagic ++ leBytes 2 1 ++ leBytes 2 0 ++ leBytes 4 1 ++ List.replicate 48 0
theorem wit_Management_fieldmap_good : fmapValid {} (fmapSigned {} fmBody) = true ∧ 0 < fmapSeq (fmapSigned {} fmBody) := by
  have hl : fmBody.length = 64 := by decide
  have hs : ∀ o n, o + n ≤ 64 → sliceOf (fmapSigned {} fmBody) o n = sliceOf fmBody o n := fun o n h => by
    unfold sliceOf fmapSigned
    rw [List.drop_append_of_le_length (by omega), List.take_append_of_le_length (by rw [List.length_drop]; omega)]
  have hn : numAt (fmapSigned {} fmBody) 10 2 = 0 := by unfold numAt; rw [hs _ _ (by decide)]; decide
  have h1 : (fmapSigned {} fmBody).take 8 = fmapMagic := by
    unfold fmapSigned; rw [List.take_append_of_le_length (by omega)]; decide
  have h2 : numAt (fmapSigned {} fmBody) 8 2 = 1 := by unfold numAt; rw [hs _ _ (by decide)]; decide
  have h3 : numAt (fmapSigned {} fmBody) 16 16 = ({} : Fuses).serial.toNat := by unfold numAt; rw [hs _ _ (by decide)]; decide
  have h4 : zerosAt (fmapSigned {} fmBody) 32 32 = true := by unfold zerosAt; rw [hs _ _ (by decide)]; decide
  have h5 : fmapBody (fmapSigned {} fmBody) = fmBody := by
    unfold fmapBody; rw [hn]; unfold fmapSigned; rw [List.take_append_of_le_length (by omega)]; decide
  have h6 : 64 ≤ (fmapSigned {} fmBody).length := by unfold fmapSigned; rw [List.length_append]; omega
  have h7 : fmapSeq (fmapSigned {} fmBody) = 1 := by unfold fmapSeq numAt; rw [hs _ _ (by decide)]; decide
  have h8 : ({} : Fuses).mapKey.isSome = true := rfl
  refine ⟨?_, by rw [h7]; decide⟩
  unfold fmapValid fmapForm fmapEntries
  rw [h5, hn, h1, h2, h3, h4, h8]
  simpa using h6
theorem wit_LogAndTelemetry :
    let x : Rec := { tb := 0, r := { cls := 1, sev := 0 } }
    let s := sU fun s => { s with errs := [(48, { recs := [x] })], mc := { log := [x], total := 1 }, hif := { s.hif with evq := { en := true, log2n := 4, tail := 14 } } }
    (mget {} s.errs 48).recs = [x] ∧ (mget {} s.errs 48).unrep = 0 ∧ s.dead = false ∧ s.mc.log = [x] ∧ s.mc.total = s.mc.mirrored + 1 ∧ s.hif.bme = true ∧ s.hif.evq.en = true ∧
      (s.hif.evq.tail + 2 ^ s.hif.evq.log2n - s.hif.evq.head) % 2 ^ s.hif.evq.log2n + 1 < 2 ^ s.hif.evq.log2n ∧ (15 + 16 - 0) % 16 + 1 = 16 ∧ s.hif.msixEn = true := by decide
/-- The first window of 1 ms ends at this tick. -/
theorem wit_LogAndTelemetry_frame :
    let s := sU fun s => { s with tb := 1000000, tel := { en := true, interval := 1, log2n := 1 } }
    s.tel.en = true ∧ s.dead = false ∧ 3 ≤ s.brg.phase ∧ (s.tel.window + 1) * (s.tel.interval * 1000000) ≤ s.tb ∧ (s.tel.tail + 2 ^ s.tel.log2n - s.tel.head) % 2 ^ s.tel.log2n + 1 < 2 ^ s.tel.log2n ∧
      ¬((s.tel.window + 1) * (s.tel.interval * 1000000) ≤ 999999) := by decide
theorem wit_LogAndTelemetry_config :
    ((0x8000000000EA6008 : Word).extractLsb' 8 16).toNat = 60000 ∧ ((0x8000000000EA6008 : Word).extractLsb' 0 4).toNat = 8 ∧ (0x8000000000EA6008 : Word).getLsbD 63 = true ∧
      60000 < ((0x8000000000EA6108 : Word).extractLsb' 8 16).toNat ∧ 8 < ((0x8000000000EA6009 : Word).extractLsb' 0 4).toNat := by decide
/-- The Drip on, core 0 present and idle. -/
def sDrip (f : State → State := id) : State := sU fun s => f { s with fuses := {}, cores := [(0, { held := false })], mc := { drip := { en := true, st := .on }, dripFlags := 31 } }
theorem wit_ServiceErrors :
    (sDrip).mc.drip.st = .on ∧ (sDrip).mc.dripFlags.getLsbD 4 = true ∧ (sDrip).dead = false ∧ (sDrip).job.paced = false ∧ (sDrip).present 0 = true ∧ ((sDrip).coreAt 0).held = false ∧
      ((sDrip).env 0).vcore = false ∧ ((sDrip).coreAt 0).mxe.eng.q = [] ∧ 1 ∉ (sDrip).mc.missed ∧ 128 * (16383 / 16) < ((sDrip).env 0).spadBytes ∧
      mget [] (sDrip).mc.ueAt (64 * (sDrip).phys 0 + 15) = [] ∧ (16383 : Nat) < 16384 ∧ 143 ∉ (sDrip).mc.sensorsOut ∧ (sU).mc.drip.st = .off := by decide
/-- A stream that leaves node 0 at its N port and the mesh at the memory port there. -/
theorem wit_ServiceErrors_stream :
    let s := sDrip fun s => { s with routers := [(0, { stab := [(0, stw 4 1 40)] }), (3456, { stab := [(0, stw 0 16 40)] })], mc := { s.mc with fails := [{ node := 0, stream := 40 }] } }
    s.mc.fails = [{ node := 0, stream := 40 }] ∧ s.dead = false ∧ s.sinks 4096 [(0, 40)] = [(3456, 40)] ∧ 3456 ≤ 3456 ∧ s.wire 3456 5 = [] := by decide
theorem wit_RegisterWrites :
    (sU).chipId < 4096 ∧ (sU).hif.dev ≠ 3 ∧ (sU).mc.fatal = false ∧ (sU).brg.phase ≠ 0 ∧ ((600 : Word).extractLsb' 0 10).toNat ≤ 600 ∧ 250 ≤ ((250 : Word).extractLsb' 0 10).toNat ∧
      ((249 : Word).extractLsb' 0 10).toNat < 250 ∧ (sU).chipLock = false ∧ (sU).mbx.busy = false ∧ (sU).sitePresent 2 = true ∧ ((sU).stk 2).fsm.st = .off ∧ ((sU).coreAt 0).held = true ∧
      ((sDrip).coreAt 0).held = false ∧ (65528 : Nat) < 65536 := by decide
theorem wit_RecordsCoalesce :
    let r : ErrRec := { cls := 1, sev := 0, ukind := 7 }
    let y : Rec := { tb := 0, r := r }
    let s : State := { errs := [(48, { recs := [y] })] }
    (mget {} s.errs r.queue).recs = [] ++ y :: [] ∧ y.r.source = r.source ∧ ({ r with cls := 2 } : ErrRec).source = r.source ∧ ({ r with punit := 1 } : ErrRec).source ≠ r.source ∧ [y].length < 64 := by decide
theorem wit_RecordsCoalesce_full :
    let y : Rec := { tb := 0, r := { cls := 1, sev := 0, ukind := 7, punit := 1 } }
    (∀ w ∈ List.replicate 64 y, w.r.source ≠ ({ cls := 1, sev := 0, ukind := 7 } : ErrRec).source) ∧ 64 ≤ (List.replicate 64 y).length := by decide
theorem wit_WordsStayInTheirCore : wordOf (.add 3071 7 1 2 3) = some (3071, 7) ∧ ∃ s', exec (.add 3071 7 1 2 3) State.reset = .next s' := ⟨rfl, _, rfl⟩
theorem wit_MemoryForm : State.reset.memWf = true ∧ ∃ s', step State.reset = .next s' := ⟨by decide, _, rfl⟩

/-! ## Witnesses of further clauses: one for each case of a statement that the ones above do not reach -/

/-- The block move of n bytes after its issue, its thread changed by f. -/
def sBm (n : Word) (f : Thread → Thread := id) : State :=
  let s := nxt (exec (.bmov c0 t0 3 1 2) (sB n))
  { s with cores := [(0, (s.coreAt 0).updThread 0 f)] }

/-- The last block, which ends at the boundary, and a block before it in a thread that is to halt. -/
theorem wit_BlockMove_last :
    ((sBm 8).coreAt 0).held = false ∧ ((sBm 8).thrOf c0 t0).st = .run ∧ ((sBm 8).thrOf c0 t0).bmov = some ⟨3, 1, 2, 0, 1, false⟩ ∧ ((sBm 8).coreAt 0).entConflict 0 = false ∧
      ((sBm 8).coreAt 0).entConflict 1 = false ∧ bmovCheck ((sBm 8).thrOf c0 t0) 3 1 2 = .ok (0x2078, 0x1000, 8) ∧ (copyBlock ((sBm 8).coreAt 0).spad 0x1000 0x2078 8).isOk = true ∧
      8 ≤ 128 - 0x2078 % 128 := by decide
theorem wit_BlockMove_halts :
    let s := sBm 16 fun th => { th with haltPend := true }
    (s.thrOf c0 t0).bmov = some ⟨3, 1, 2, 0, 1, false⟩ ∧ bmovCheck (s.thrOf c0 t0) 3 1 2 = .ok (0x2078, 0x1000, 16) ∧ (s.thrOf c0 t0).haltPend = true ∧ (s.thrOf c0 t0).slot = none ∧
      (s.thrOf c0 t0).shadow = false ∧ 128 - 0x2078 % 128 < 16 := by decide
/-- An OUT in S mode, and registers that U mode may read and write. -/
theorem wit_InOut_allowed :
    let u := sIO 0x2A40 fun th => { th with smode := false }
    MayIssue (sIO 0x2000) c0 t0 {} ∧ MayIssue u c0 t0 {} ∧ (u.thrOf c0 t0).smode = false ∧ uReadDenied 0x2A40 = false ∧ uWriteDenied (u.env 0).vcore 0 0x2A40 = false ∧
      outHeld (u.env 0) (u.coreAt 0) 0x2A40 = false ∧ (u.greg c0 t0 3).tag = .int := ⟨may _ _ _ _ (by decide), may _ _ _ _ (by decide), by decide⟩
/-- A hold with 63 of its 64 places taken, a full one, and an SPTR that names no counter. -/
theorem wit_CountersRemote_paced :
    let s (n : Nat) := sC fun k => { k with pace := { mode := true, per := 256, held := List.replicate n ⟨0, .arrive 0⟩ } }
    MayIssue (s 63) c0 t0 {} ∧ ((s 63).coreAt 0).pace.mode = true ∧ ((s 63).coreAt 0).pace.used < 64 ∧ MayIssue (s 64) c0 t0 {} ∧ ((s 64).coreAt 0).holdRoom = false ∧
      ((s 64).coreAt 0).released 0 1 = true := ⟨may _ _ _ _ (by decide), by decide, by decide, may _ _ _ _ (by decide), by decide, by decide⟩
theorem wit_CountersRemote_none : saCounter (mkSa 5 2 0x100) = none ∧ saCounter (mkSa 5 1 0x808) = none := by decide
theorem wit_FencesAndBarriers_unreleased :
    let s := { sCW with cores := sCW.cores.map fun p => (p.1, { p.2 with part := 8 }) }
    MayIssue s c0 t0 {} ∧ ((s.coreAt 0).part.getLsbD 3 && (s.line 3).isLocal) = true ∧ (s.coreAt 0).released 0 3 = false := ⟨may _ _ _ _ (by decide), by decide⟩
/-- A queued increment through an SPTR that names no counter. -/
theorem wit_CountersQueued_target :
    let w := qWord 2 2 0 5 2 0
    let s := sQ 31 fun k => k.updThread 0 fun th => th.setReg 5 ⟨mkSa 5 2 0x100, .sptr⟩
    MayIssue s c0 t0 {} ∧ ctrOperands (s.env 0) (s.coreAt 0) (s.thrOf c0 t0) w = .ok (mkSa 5 2 0x100, 7) ∧ (ctrTarget w (mkSa 5 2 0x100)).isOk = false ∧
      (ctrTarget (qWord 2 2 0 1 2 0) (mkSa 5 2 0x808)).isOk = true := ⟨may _ _ _ _ (by decide), by decide⟩
theorem wit_Send_conflict :
    let s := sS { fsm := { en := true, st := .on } } fun k => (k.trkTake true 0x1008 8 true).1
    MayIssue s c0 t0 {} ∧ (s.coreAt 0).conflict true 0x1008 16 false = true ∧ ptrRange pRW.val 16 false = true := ⟨may _ _ _ _ (by decide), by decide⟩
theorem wit_SendCompletes :
    let s := stT [] fun th => { th with st := .wait, wcause := .sendRead, waitOp := some (.sendRead 0x1008 16) }
    (s.coreAt 0).held = false ∧ 0 < (s.env 0).nthr ∧ (s.thrOf c0 t0).st = .wait ∧ (s.thrOf c0 t0).wcause = .sendRead ∧ (s.thrOf c0 t0).waitOp = some (.sendRead 0x1008 16) := by decide
/-- A transfer with 31 of the tracker's 32 entries taken. -/
theorem wit_DmaIssue_tracker :
    let s := sD fun k => { k with trk := { ents := (List.range 31).map fun i => { id := i, loc := true, first := 100000 + i, len := 1, wr := false }, next := 31 } }
    MayIssue s c0 t0 {} ∧ (s.coreAt 0).ownerFull (s.env 0) 0 3 = false ∧ (s.coreAt 0).trkFree < 2 ∧ dmaChecks (s.env 0) (s.coreAt 0) 0 1 64 true desc = .ok () :=
  ⟨may _ _ _ _ (by decide), by decide +kernel⟩
/-- Channel 1 with one transfer of 64 bytes: not begun, half begun, wholly begun, aborting already, and halted. -/
theorem wit_DmaAbortInstruction_runs :
    let s (x : Dma) := sD fun k => { k with dma1 := { x with eng := { x.eng with q := [{ qw := desc ++ [pack [(encDmago 1 2, 0, 32)]] }] } } }
    let q : QEnt := { qw := desc ++ [pack [(encDmago 1 2, 0, 32)]] }
    MayIssue (s {}) c0 t0 {} ∧ headTransfer ((s {}).coreAt 0) 1 = some q ∧ (((s {}).coreAt 0).dma 1).run = none ∧ (((s {}).coreAt 0).dma 1).eng.parked = false ∧ q.desc.total = 64 ∧
      headTransfer ((s { run := some { t0 := 3, started := 32 } }).coreAt 0) 1 = some q ∧ ({ t0 := 3, started := 32 } : DmaRun).bursts = [] ∧
      ({ t0 := 3, started := 64 } : DmaRun).started = q.desc.total ∧ ({ t0 := 3, abort := some 1 } : DmaRun).abort.isSome = true ∧
      (((s { eng := { halt := true } }).coreAt 0).dma 1).eng.halt = true := ⟨may _ _ _ _ (by decide), by decide⟩
/-- Accesses relative to ring 0: bit 23 of the operand set, aligned, with a pitch of zero or more. -/
theorem wit_MatrixMemory_ring :
    let s := sD fun k => k.updThread 0 fun th => th.setReg 5 (tint 0x800000)
    let p : Word := 0x800000
    MayIssue s c0 t0 {} ∧ s.greg c0 t0 5 = tint p ∧ s.greg c0 t0 3 = tint 128 ∧ p.getLsbD 23 = true ∧ p.toNat % 4 = 0 ∧ 0 ≤ sextNat (128 % 2 ^ 32) 32 ∧ sextNat (128 % 2 ^ 32) 32 % 4 = 0 ∧
      mxeIllegal (s.env 0).vcore (encTload 2 5 3 0 3 1 0) = false ∧ (mxeCheck (s.coreAt 0).mxe (encTload 2 5 3 0 3 1 0) 1).isOk = true := ⟨may _ _ _ _ (by decide), by decide⟩
theorem wit_VectorMemory_ring :
    let s := sD fun k => k.updThread 0 fun th => th.setReg 5 (tint 0x880004)
    MayIssue s c0 t0 {} ∧ s.greg c0 t0 5 = tint 0x880004 ∧ (0x880004 : Word).getLsbD 23 = true ∧ (0x880004 : Word).toNat % 4 = 0 ∧ (0x880004 : Word).toNat / 2 ^ 19 % 16 = 1 :=
  ⟨may _ _ _ _ (by decide), by decide⟩
/-- A thread that owes its delay slot, one in the shadow of a mode change, and one that a far load holds: each halts later. -/
theorem wit_ThreadStates_later :
    let s := stT [] fun th => { th with slot := some ⟨0, none, none⟩ }
    (s.thrOf c0 t0).st = .run ∧ (s.thrOf c0 t0).slot ≠ none ∧ ({ st := .run, shadow := true } : Thread).shadow = true ∧ ({ st := .wait, wcause := .farLoad } : Thread).wcause = .farLoad ∧
      ({ st := .idle, slot := some ⟨0, none, none⟩ } : Thread).st = .idle := by decide
theorem wit_HandlersAndWaits_paced :
    let s := { stT [] (fun th => { th with st := .wait, wcause := .pace, waitOp := some .paceStart }) with tb := 7 }
    (s.coreAt 0).held = false ∧ 0 < (s.env 0).nthr ∧ (s.thrOf c0 t0).st = .wait ∧ (s.thrOf c0 t0).waitOp = some .paceStart ∧ (s.coreAt 0).pace.mode = false ∧
      ({ mode := true, t0 := 7 } : Pace).t0 ≤ s.tb := by decide
/-- Engines with a full queue or too few tracker entries free, a command that never fits, and a vector exception that its halt lets drop. -/
theorem wit_EngineRecovery_full :
    let g : Eng := { parked := true, q := List.replicate 32 { qw := [] } }
    let v : Eng := { halt := true, hcause := 3 }
    let s := st [] fun k => { k with mxe := { eng := g }, vxe := { eng := v } }
    ((s.coreAt 0).eng 0).parked = true ∧ 32 ≤ ((s.coreAt 0).eng 0).q.length ∧ pushFits 0 (({} : Eng).staging 4) = false ∧ ((s.coreAt 0).eng 1).parked = false ∧
      ((s.coreAt 0).eng 1).halt = true ∧ ((s.coreAt 0).eng 1).hcause = 3 ∧ ((sR.coreAt 0).eng 0).halt = false ∧ ((sR.coreAt 0).eng 0).parked = false := by decide
theorem wit_EngineWindows_tag :
    let s := st [] fun k => { k with mxe := { eng := { parked := true }, tile := 11, word := 511 } }
    (s.coreAt 0).mxe.eng.parked = true ∧ ((s.coreAt 0).mxe.word + 1) % (if (s.coreAt 0).mxe.tile < 8 then 256 else 512) = 0 ∧ Shape.holds (decTag 0) 3 0 = false ∧
      (sR.coreAt 0).mxe.eng.parked = false := by decide
/-- A channel that starts, one that is on, and a parked one with room for its staged transfer or with sixteen queued. -/
theorem wit_DmaChannels_states :
    let s (x : Dma) := st [] fun k => { k with dma0 := x }
    let g (n : Nat) : Eng := { parked := true, q := List.replicate n { qw := [] }, stage := (List.range 13).zip (List.replicate 12 0 ++ [BitVec.ofNat 64 (encDmago 1 2)]) }
    (((s {}).coreAt 0).dma 0).fsm.st = .off ∧ ((s { fsm := { en := true, st := .starting } }).coreAt 0 |>.dma 0).fsm.en = true ∧ ((s { fsm := { st := .on } }).coreAt 0 |>.dma 0).fsm.st = .on ∧
      (((s {}).coreAt 0).dma 0).run = none ∧ (((s { eng := g 15 }).coreAt 0).dma 0).eng.q.length < 16 ∧ pushFits 2 ((g 15).staging 13) = true ∧
      (pushRanges ((s {}).env 0) ((s { eng := g 15 }).coreAt 0) 2 ((g 15).staging 13)).length ≤ ((s { eng := g 15 }).coreAt 0).trkFree ∧
      16 ≤ (((s { eng := g 16 }).coreAt 0).dma 0).eng.q.length ∧ (((s { eng := g 16 }).coreAt 0).dma 0).eng.halt = false := by decide
/-- A far load answered with a word of its type, with one of another, and with an error; a failed write; a mark for counter 0. -/
theorem wit_PacketsAtCores_answers :
    let s := sPk (.err 5) fun k => { k with thr := [(0, { st := .wait, waitOp := some (.farData 31 3 0 0 4 0) })], writes := [{ xid := 9, issuer := 7, scope := 3, addr := 0, trk := some 0 }] }
    (s.thrOf c0 t0).waitOp = some (.farData 31 3 0 0 4 0) ∧ s.svc.inbox.map InMsg.body = [.err 5] ∧ (farResult 3 0 5 .int 0).isOk = true ∧ (farResult 3 2 5 .int 0).isOk = false := by decide
theorem wit_PacketsAtCores_failed :
    let s (inc : Bool) := sPk (.err 5) fun k => { k with writes := [{ xid := 4, issuer := 7, scope := 3, addr := 0, inc := inc }] }
    ∀ inc, (s inc).svc.inbox.map InMsg.xid = [4] ∧ ((s inc).coreAt 0).dmaReads 4 = false ∧ ((s inc).coreAt 0).farReads 4 = false ∧ (s inc).egress (nodeOf ((s inc).phys 0)) = none ∧
      (((s inc).coreAt 0).writes.find? (fun w => w.xid == 4 && !w.failed)).map FarWrite.inc = some inc := by decide
theorem wit_PacketsAtCores_mark : saCounter (mkSa 5 2 0x800) = some 0 ∧ saCounter (mkSa 5 2 0x980) = none ∧ (sPk (.markBroken (mkSa 5 2 0x800))).svc.inbox.map InMsg.body = [.markBroken (mkSa 5 2 0x800)] := by decide

/-- The item that has come on stream 5 for core 0, whose rings are changed by f. -/
def sItem' (x : Item) (f : Ring → Ring := id) : State :=
  let s := sItem x
  { s with cores := s.cores.map fun p => (p.1, { p.2 with rings := p.2.rings.map fun q => (q.1, f q.2) }) }
/-- What the egress of core 0 hands over. -/
def egItem (s : State) : Option (Item × Nat) := (s.egress (nodeOf (s.phys 0))).map fun p => (itemOf p.1, (p.1.head?.map Flit.stream).getD 0)

/-- A write to a ring that stops, to one with no room and on a stream that no ring binds; a message, a close request, a read request, and answers that no channel awaits. -/
theorem wit_ItemsAtCores_rings :
    let w : Item := .write 64 [1, 2] []
    let stop := sItem' w fun q => { q with fsm := { st := .stopping } }
    let full := sItem' w fun q => { q with size := 0 }
    egItem stop = some (w, 5) ∧ boundStream (stop.coreAt 0) 5 = some 2 ∧ ((stop.coreAt 0).ringAt 2).fsm.st = .stopping ∧ egItem full = some (w, 5) ∧ boundStream (full.coreAt 0) 5 = some 2 ∧
      ((full.coreAt 0).ringAt 2).cap - ((full.coreAt 0).ringAt 2).fill < 1 ∧ boundStream ((sItem' w fun q => { q with stream := 6 }).coreAt 0) 5 = none := by decide
theorem wit_ItemsAtCores_others :
    (∀ x ∈ [Item.closeReq 9 3, .readReq 64 8, .writeResp 64 0, .readData 64 8 0 [1, 2, 3, 4, 5, 6, 7, 8] [], .message { msg64 with data := [1, 2] }], egItem (sItem x) = some (x, 5)) ∧
      streamChannels ((sItem (.writeResp 64 0)).env 0) ((sItem (.writeResp 64 0)).coreAt 0) 5 = [] := by decide

/-- Outbound endpoint 1 and inbound endpoint 3 of ring 2, as given, with the packet that has come. -/
def sEp (b : SvcBody) (x : Cho) (y : Chi) : State := sPk b fun k => { k with cho := [(1, x)], chi := [(3, y)], rings := [(2, ring .on)] }

theorem wit_ChannelPackets_answers :
    let r := sEp (.refusal 1 0) { fsm := { en := true, st := .starting } } {}
    let k := sEp (.credit 1 9 4) { fsm := { en := true, st := .on }, epoch := 9, grant := 8, credit := 5 } {}
    let n := sEp (.closeNotice 1 9 true) { fsm := { st := .stopping, pend := true }, epoch := 9 } {}
    r.svc.inbox.map InMsg.body = [.refusal 1 0] ∧ ((r.coreAt 0).choAt 1).fsm.st = .starting ∧ k.svc.inbox.map InMsg.body = [.credit 1 9 4] ∧ ((k.coreAt 0).choAt 1).fsm.st = .on ∧
      ((k.coreAt 0).choAt 1).epoch = 9 ∧ ((k.coreAt 0).choAt 2).fsm.st ≠ .on ∧ n.svc.inbox.map InMsg.body = [.closeNotice 1 9 true] ∧ ((n.coreAt 0).choAt 1).fsm.st = .stopping ∧
      ((n.coreAt 0).choAt 1).fsm.pend = true ∧ ((n.coreAt 0).choAt 1).epoch = 9 ∧ n.egress (nodeOf (n.phys 0)) = none := by decide
/-- An open request for an endpoint that is already ON, an abandon notice of another sender and a close request of another epoch. -/
theorem wit_ChannelPackets_refused :
    let o := sEp (.openReq 3 9 7 1 true) {} { fsm := { en := true, st := .on }, ring := 2, share := 2, dyn := true }
    let a := sEp (.abandon 3 9 7 1) {} { fsm := { en := true, st := .on }, ring := 2, peer := some ⟨9, 7, 2⟩ }
    let b := sEp (.abandon 3 9 7 1) {} { fsm := { en := true, st := .starting }, ring := 2 }
    let q := sEp (.closeReq 3 9 9 7 1) {} { fsm := { en := true, st := .on }, ring := 2, epoch := 8 }
    o.svc.inbox.map InMsg.body = [.openReq 3 9 7 1 true] ∧ ((o.coreAt 0).chiAt 3).fsm.st ≠ .starting ∧ a.svc.inbox.map InMsg.body = [.abandon 3 9 7 1] ∧ ((a.coreAt 0).chiAt 3).fsm.st ≠ .starting ∧
      ((a.coreAt 0).chiAt 3).peer ≠ some ⟨9, 7, 1⟩ ∧ ((b.coreAt 0).chiAt 3).fsm.st = .starting ∧ q.svc.inbox.map InMsg.body = [.closeReq 3 9 9 7 1] ∧ ((q.coreAt 0).chiAt 3).epoch.toNat ≠ 9 := by decide
/-- A close request that leaves by the service network, one for the mesh, a message for the mesh in a paced core, and a core whose hold is full. -/
theorem wit_MessagesAndEndpoints_leave :
    let o (dyn : Bool) : OutMsg := { cho := 63, dyn := dyn, stream := 5, dst := saCore 9 1 7 0, dchi := 1, epoch := 9 }
    let p (n : Nat) : Pace := { mode := true, per := 256, held := List.replicate n ⟨0, .arrive 0⟩ }
    let s (dyn : Bool) (n : Nat) := st [] fun k => { k with out := [o dyn], pace := p n }
    (∀ dyn, nextOut [] ((s dyn 63).coreAt 0).out = some (o dyn, []) ∧ (o dyn).msg = none ∧ (o dyn).dyn = dyn ∧ (o dyn).reader = none) ∧ ((s false 63).coreAt 0).pace.mode = true ∧
      ((s false 63).coreAt 0).pace.used < 64 ∧ ((s false 64).coreAt 0).holdRoom = false ∧ ((st []).coreAt 0).pace.mode = false ∧ ({ o false with msg := some msg64 } : OutMsg).msg = some msg64 := by decide
theorem wit_MessagesAndEndpoints_states :
    let s := st [] fun k => { k with cho := [(62, { fsm := { en := true, st := .on } })], chi := [(62, { fsm := { st := .starting } })] }
    ((s.coreAt 0).chiAt 63).fsm.st = .off ∧ ((s.coreAt 0).chiAt 62).fsm.st = .starting ∧ ((s.coreAt 0).choAt 63).fsm.st = .off ∧ ((s.coreAt 0).choAt 62).fsm.st = .on := by decide

/-- A line that has sent its ARRIVE, one that is broken, a write of BLX.n that a participant's arrive bit shuts out, and one that names both ROOT and UP. -/
theorem wit_BarrierLines_others :
    let s := { sLine 8 with blx := [(3, { isLocal := true, sent := true, upv := true, up := 2 }), (4, { brk := true })] }
    s.dieArrived 3 = true ∧ (s.line 3).root = false ∧ (s.line 3).sent = true ∧ (s.line 4).brk = true ∧ s.blxIgnored 3 0xC00000 = true ∧ ({ chipId := 5 } : State).blxIgnored 3 0x600000 = true ∧
      ({ chipId := 5 } : State).blxIgnored 3 0xC00000 = false ∧ ({ chipId := 5, blx := [(3, { brk := true })] } : State).blxIgnored 3 (({ chipId := 5, blx := [(3, { brk := true })] } : State).line 3).word = false ∧
      s.blxIgnored 3 (s.line 3).word = true := by decide
/-- A unit one ahead of the expected USEQ, and one behind it. -/
theorem wit_BarrierUnits_order : (1 : Nat) ≠ (({} : Lnk).uexp) ∧ (1 + 255 - ({} : Lnk).uexp) % 255 < 128 ∧ (254 : Nat) ≠ (({} : Lnk).uexp) ∧ 128 ≤ (254 + 255 - ({} : Lnk).uexp) % 255 := by decide

/-- A port held at the codeword count of its swap, one that has asked, one that sends again, and cells that do not decode or have another CRC. -/
theorem wit_LinkCells_others :
    let c : Cell := { seq := 0, ack := 127, body := .vl1 (.pkt (pkt 3 904 6) false) }
    let swap : Lnk := { onPort with swap := some (300, 4), cwords := 300 }
    swap.up = true ∧ swap.holds = true ∧ (swap.fecIn 200000 []).holds = true ∧ ({ onPort with asked := true } : Lnk).asked = true ∧ onPort.asked = false ∧
      ({ onPort with resend := [c], held := [(c, 1)] } : Lnk).resend = c :: [] ∧ ¬(onPort.corrects < ([] : List Nat).length) ∧ (∃ w ∈ [List.replicate 16 8], onPort.corrects < w.length) ∧
      ¬(((onPort.fecIn 200000 []).acked 200000 127).expSeq ≠ c.seq) ∧ (127 + 128 - c.seq) % 128 ≥ 64 ∧ (0 + 128 - c.seq) % 128 < 64 := by decide
theorem wit_LinkCells_crc : ∃ crc : BitVec 32, crc ≠ ({ seq := 0, ack := 127, body := .idle } : Cell).crc :=
  ⟨~~~({ seq := 0, ack := 127, body := .idle } : Cell).crc, by
    generalize ({ seq := 0, ack := 127, body := .idle } : Cell).crc = x
    intro h
    have := congrArg (fun y : BitVec 32 => y.getLsbD 0) h
    simp at this⟩
/-- Credits freed since the last report, less than eight, and told 1 µs ago; a port whose oldest cell has gone sixteen times. -/
theorem wit_LinkCells_late_credit :
    let p : Lnk := { onPort with freed0 := 9, told0 := 8, lcAt := 199000 }
    let q : Lnk := { onPort with held := [(⟨0, 0, .idle⟩, 16)], rpAt := 199489, progAt := 199999 }
    0 < (p.freed0 + 65536 - p.told0) % 65536 ∧ p.lcAt + 1000 ≤ (sK p).tb ∧ (∃ h ∈ q.held, 16 ≤ h.2) ∧ (sK q).tb < q.rpAt + 512 ∧ (onPort.freed0 = onPort.told0 ∧ onPort.freed1 = onPort.told1) := by decide
/-- A unit that asks already, a lane swap agreed or done, a STOPPING port with only new units, and a sequenced unit and a BEACON to send. -/
theorem wit_LinkUnits_others :
    let ask : Urgent := { kind := 5, body := BitVec.ofNat 96 131072 }
    let u : Urgent := { kind := 7, body := BitVec.ofNat 96 (4 + 300 * 256) }
    ask ∈ ({ onPort with uready := [ask] } : Lnk).uready ∧ ask ∉ onPort.uready ∧ u.useq = 255 ∧ (u.body.extractLsb' 0 4).toNat = 4 ∧ (u.body.extractLsb' 8 32).toNat = 300 ∧ onPort.swap = none ∧
      onPort.lmap = [] ∧ ({ onPort with swap := some (299, 4) } : Lnk).swap = some (299, 4) ∧ ({ onPort with lmap := [(4, 8)] } : Lnk).lmap ≠ [] ∧
      (∀ v ∈ [({ kind := 4, body := 0 } : Urgent)], urgentSequenced v.kind = false ∨ v.useq = 255) ∧ ({ fsm := { st := .stopping } } : Lnk).fsm.st = .stopping ∧ urgentSequenced 7 = true ∧ urgentSequenced 2 = false ∧
      ({ u with useq := 0 } : Urgent).useq = onPort.uexp ∧ (0x20000 : BitVec 96).getLsbD 17 = true ∧ (0x20000 : BitVec 96).getLsbD 16 = false := by decide
/-- A lane that fails by its corrected symbols, of a port without a spare, with a pending swap of the same lane and of another, of the spare itself, and the count of a swap reached. -/
theorem wit_LinkPorts_lanes :
    let p : Lnk := { onPort with sparen := true, errWin := 0, spthr := 3, laneErr := [(4, 4)] }
    let w : Lnk := { onPort with swap := some (300, 4), cwords := 300 }
    (p.errWin == 200000 / 1000000 && decide (p.spthr < mget 0 p.laneErr 4)) = true ∧ p.laneUsed 4 = true ∧ p.sparen = true ∧ p.laneUsed 8 = false ∧ p.swap = none ∧ ({ p with sparen := false } : Lnk).sparen = false ∧
      w.swap = some (300, 4) ∧ (4 : Nat) ≠ 7 ∧ w.holds = true ∧ ({ w with cwords := 299 } : Lnk).holds = false ∧ ({ p with lmap := [(4, 8)] } : Lnk).laneUsed 4 = false ∧ ({ p with lmap := [(4, 8)], spared := true } : Lnk).laneUsed 8 = true := by decide
theorem wit_LinkPorts_unverified :
    let x : Training := { verified := false }
    x.lanes = [] ∧ x.latency = true ∧ x.verified = false ∧ ({ fsm := { en := true, st := .starting }, fec := 1 } : Lnk).fec = 1 ∧ onPort.fsm.st = .on ∧ ({ held := [] } : Lnk).held = [] := by decide
/-- The link delay is measured 1 ms after the last time and not a tick before; the way to the next multiple of the interval of an edge that fell on it, and of one half between two. -/
theorem wit_TimeSync_measure :
    let s (n : Nat) := sK { onPort with delayAt := 1 } fun s => { s with tb := n }
    ((s 0).port 2).fsm.st = .on ∧ ((s 0).port 2).delayAt + 1000000 ≤ (s 1000001).tb ∧ (s 1000000).tb < ((s 0).port 2).delayAt + 1000000 ∧ syncOffset 1000 3000 0 = 0 := by decide

/-- A port that a packet starts, the router's write ranges at their ends, a router that starts without its enable, one draining, and a router without a watchdog. -/
theorem wit_RouterControl_others :
    let s := sN { fsm := { en := false, st := .starting }, stab := [(0, stw 3 2 40)] }
    let r : Router := { fsm := { st := .stopping }, ports := [(1, { pst := 3 }), (2, { pst := 0 })] }
    (s.router 100).fsm.st = .starting ∧ (s.router 100).fsm.en = false ∧ s.routeRefused 100 = false ∧ (∀ q ∈ r.ports, q.2.pst = 3 ∨ q.2.pst = 0) ∧ (rOn).fsm.st = .on ∧ (rOn).wdog = 0 ∧
      (0x400 : BitVec 14).toNat = 0x400 ∧ (0x7F8 : BitVec 14).toNat < 0x800 := by decide
/-- A flit with an uncorrectable sideband, one with a marked word, and a buffer that is full; the last flit of an entry. -/
theorem wit_MeshForwarding_others :
    let full := (rOn).setBuf 3 (List.replicate 32 { f := fl 40 })
    ¬(bufUsed (full.buf 3) < 32) ∧ bufUsed ((rOn).buf 3) < 32 ∧ ({ sideband := true } : FlitEcc).sideband = true ∧ ({ words := 1 } : FlitEcc).sideband = false ∧ (rOn).streamsAt 0 ≠ [] ∧
      schedCount (pack [(1, 62, 2), (40, 48, 10)]) ≤ ((rOn).out 1).sent + 1 := by decide
theorem wit_ServiceNetwork_others :
    let s := sV { pkt 2 904 7 with arrived := true }
    let t := sV (pkt 4 905 0)
    s.svc.out.map SvcPkt.arrived = [true] ∧ s.colHolds (pkt 3 904 6) = false ∧ t.tb < 905 + 4096 ∧ (pkt 2 904 7).body = .read (pkt 2 904 7).addr 8 ∧ 0 < 1 := by decide
/-- A write of the same transfer that waits at the stack before this one, and a command whose parity fails twice. -/
theorem wit_StackAccess_waits :
    let m : InMsg := { unit := unitOf 5 (unitHbm 2 3), src := unitOf 5 7, addr := 0, back := saCore 5 1 7 0, xid := 3, phys := some 64, body := .write 64 (List.replicate 64 1) [] false .raw }
    (sM hOn).svc.inbox = [m] ∧ ((sM hOn).took []).olderWrite 2 m = false ∧ 2 ≤ ({ par := 2 } : Ecc).par ∧ ({} : Ecc).par = 0 ∧ hOn.fsm.st = .on ∧ (sM hOn).hif.bar = [] := by decide
/-- A row that the Drip has found faulty, one that it has not, and a stack already hot. -/
theorem wit_StackMaintenance_row :
    let k : Hbm := { hOn with found := [0] }
    let s := sM k fun s => { s with mc := { drip := { en := true, st := .on } }, svc := {} }
    s.mc.drip.st = .on ∧ s.maintNow = true ∧ k.winEnd ≤ s.tb ∧ s.channelIdle 2 0 = true ∧ k.rowBad 0 (Config.rowOf 0) = true ∧ hOn.rowBad 0 0 = false ∧ (sM { hOn with doubled := true }).hot 2 = true ∧
      (sM hOn).hot 2 = false := by
  refine ⟨by decide, by decide, by decide, by decide, ?_, ?_, by decide, by decide⟩
  · have h1 : keyPc 0 = 0 := by decide
    have h2 : keyBlock 0 = 0 := by decide
    simp [Hbm.rowBad, inRow, h1, h2]
  · simp [Hbm.rowBad, hOn]
theorem wit_RegionsAndStacks_states :
    let s := sM { fsm := { en := true, st := .starting } } fun s => { s with regions := [(4, { fsm := { en := true, st := .on } }), (5, { fsm := { st := .stopping } })] }
    (s.region 3).fsm.st = .off ∧ (s.region 4).fsm.st = .on ∧ (s.region 5).fsm.st = .stopping ∧ (s.region 5).fsm.pend = false ∧ (s.stk 2).fsm.st = .starting ∧ (s.stk 2).fsm.en = true ∧
      ({ fsm := { st := .stopping } } : Hbm).fsm.pend = false ∧ (s.stk 3).fsm.st = .off ∧ s.sitePresent 3 = true := by decide

/-- A chip without power, a load in progress with a half asked off or not, a request that finds another in progress, and a half with its other half off. -/
theorem wit_PowerHalves_requests :
    let s := sU fun s => { s with hif := { s.hif with job := 1 } }
    let off := nxt (exec (.halfOffRequest true) (sU fun s => { s with routers := [] }))
    let load : State := { off with hif := { off.hif with job := 1 } }
    ({ sU with mc := { fatal := true } } : State).dead = true ∧ s.dead = false ∧ s.hif.job = 1 ∧ s.halfAsked true = false ∧ load.hif.job = 1 ∧ load.halfAsked true = true ∧ off.halfAsked true = true ∧
      off.pwr.busy = true ∧ off.hif.job ≠ 1 ∧ ({ off with pwr := { off.pwr with busy := false } } : State).halfAsked true = true ∧
      (({ sU with pwr := { w := { on := false } } } : State).half (!true)).on = false := by decide
/-- A packet of the half that was there before its drain began, and one that came into it afterwards. -/
theorem wit_PowerHalves_packets :
    let p (born : Nat) : SvcPkt := { pkt 3 904 0 with dst := unitOf 5 (72 * 4), born := born }
    let s (born : Nat) := sU fun s => { s with tb := 20999, svc := { out := [p born] }, pwr := { s.pwr with busy := true, e := { s.pwr.e with drain := some 1000 }, w := { s.pwr.w with drain := none } } }
    let e := clEast 4
    (s 999).unitIn' e (p 999).dst = true ∧ (p 999).born < 1000 ∧ (s 999).tb < 1000 + 20000 ∧ 1000 ≤ (p 1000).born ∧ (s 999).colHolds (p 999) = false := by decide
/-- A flush read of a window with nothing written, and one behind a write; a doorbell behind a host write, and one that no write holds. -/
theorem wit_HostWindow_order :
    let q : HostReq := { bar4 := true, read := false, addr := 0, len := 8, data := List.replicate 8 1, bells := 0 }
    (∃ x ∈ [q], x.read = false ∧ x.bells = 0) ∧ (∀ x ∈ [{ q with bells := 1 }], x.read = true ∨ x.bells ≠ 0) ∧ (sU).hif.wins = [] ∧ (sU).hif.bells = [] ∧ (sU).hif.flush = [] := by decide
theorem wit_HostWindow_write :
    let m : InMsg := { win with body := .write (mkSa 5 3 0x2000) [1, 2] [] false .raw }
    let s := sU fun s => { s with hif := { s.hif with flush := [(0, 1)], wins := [m] } }
    s.hif.flush = [(0, 1)] ∧ s.hif.reads = [] ∧ s.hif.wins = [m] ∧ (sU fun s => { s with hif := { s.hif with job := 3 } }).hif.job = 3 := by decide
/-- QUERY before the chip is ready; STOP in FAILED; MAP with a reserved bit, in FAILED, and of no bytes. -/
theorem wit_CommandRing_others :
    let s := sRing (cmd 4 [0x1000]) fun s => { s with hif := { s.hif with dev := 0 } }
    let f := sRing (cmd 6 [4096, 4096, 0]) fun s => { s with hif := { s.hif with dev := 3 } }
    s.hif.dev = 0 ∧ f.hif.dev = 3 ∧ f.running = false ∧ (HCmd.mk (cmd 6 [4096, 4096, 0])).plain 3 = true ∧ ((HCmd.mk (cmd 6 [4096, 4096, 0x10])).word 3).extractLsb' 4 4 ≠ 0 ∧
      ((HCmd.mk (cmd 6 [4096, 4096, 0x400])).word 3).extractLsb' 10 54 ≠ 0 ∧ ((HCmd.mk (cmd 6 [4096, 0, 0x30D])).word 2).toNat = 0 ∧ s.hif.cmds = [⟨cmd 4 [0x1000]⟩] := by decide
/-- LOAD during a power request, in another state and of a part not provisioned; START refused and too early; the tick not yet reached; RESET clears in FAILED and of a chip with a core. -/
theorem wit_JobLife_others :
    let busy := sRing (cmd 1 [0, 64]) fun s => { s with pwr := { busy := true } }
    let blank := sRing (cmd 1 [0, 64]) fun s => { s with hif := { s.hif with job := 0 }, fuses := { lc := 0 } }
    let early := sRing (cmd 2 [54999])
    let fail := sRing (cmd 5 [0]) fun s => { s with hif := { s.hif with dev := 3 } }
    let clear := sRing (cmd 5 [0]) fun s => { s with fuses := {}, cls := [(0, { en := true, st := .on })] }
    busy.pwr.busy = true ∧ busy.hif.cmds = [⟨cmd 1 [0, 64]⟩] ∧ blank.fuses.lc = 0 ∧ blank.hif.job = 0 ∧ (sRing (cmd 2 [0]) fun s => { s with hif := { s.hif with job := 0 } }).hif.job ≠ 2 ∧
      ((HCmd.mk (cmd 2 [54999])).word 1).toNat < early.tb + 50000 ∧ ((HCmd.mk (cmd 2 [0])).word 1).toNat = 0 ∧ fail.hif.dev = 3 ∧ clear.present 0 = true ∧ clear.clPresent (lcCluster 0) = true ∧
      (clear.cl (lcCluster 0)).st ≠ .off ∧ ({} : Job).start = none ∧ early.tb < 6000 ∧ (sRing (cmd 2 [0])).coreAt 0 = ({} : State).coreAt 0 := by decide
theorem wit_HostRegisters_pending : (sU).hif.msixPba.contains 63 = false ∧ ({ msixPba := [63] } : Hif).msixPba.contains 63 = true ∧ (2 ^ 63 : Nat) < 2 ^ 64 := by decide
/-- An access to a chip that is not ready, beyond the scratchpad, and of a core of a cluster that is OFF. -/
theorem wit_Apertures_refused :
    ({ sAp with hif := { sAp.hif with dev := 0 } } : State).hif.dev ≠ 1 ∧ (0 : Nat) ≠ 2 ∧ sAp.runsOf unitPcie 8192 8 = none ∧ (sAp.env 0).spadBytes < (sAp.env 0).spadBytes - 7 + 8 ∧
      (sAp.env 0).spadBytes < 524288 ∧ (sAp.cl (lcCluster 100)).st = .off ∧ 100 < 3072 ∧ sAp.present 100 = true := by decide
/-- A part just PROVISIONED with no secret, one that has its secret, and one whose fuses have no voltage. -/
theorem wit_ResetsAndBringup_secret :
    let s : State := { brg := { phase := 3 }, fuses := { lc := 1, secret := none } }
    s.hif.dev = 0 ∧ s.brg.phase = 3 ∧ s.fuses.lc = 1 ∧ s.fuses.secret = none ∧ s.fuses.kill = false ∧ ({ vfuse := true } : PhaseEnd).vfuse = true ∧ ({ s.fuses with secret := some 0 } : Fuses).secret ≠ none ∧
      ({ vfuse := false } : PhaseEnd).vfuse = false := by decide
theorem wit_ResetsAndBringup_failed :
    let s (n : Nat) : State := { brg := { phase := n, hold := 1 } }
    (∀ n ∈ [1, 2], (s n).brg.phase = n ∧ (s n).hif.dev = 0 ∧ (s n).brg.pushing = false) ∧ ({ failed := true } : PhaseEnd).failed = true ∧ ({} : PhaseEnd).failed = false ∧ (s 8).brg.hold ≠ 0 ∧ (s 8).brg.topo = none ∧
      ({ straps := 1 } : Brg).straps % 2 = 1 := by decide
/-- A cluster whose third heartbeat is missed, and one not all of whose cores are parked. -/
theorem wit_Clusters_others :
    let s := sCl .on fun s => { s with mc := { beats := [(0, 2)] } }
    let t := sCl .stopping fun s => { s with cores := [(0, { held := false, thr := [(0, { st := .idle })] })] }
    mget 0 s.mc.beats 0 = 2 ∧ s.clPresent 0 = true ∧ s.dead = false ∧ (t.cl 0).st = .stopping ∧ lcCluster 0 = 0 ∧ (t.coreAt 0).allParked (t.env 0) = false := by decide
/-- A part with a claim open and its top tree's keys, and one without a leaf left and no voltage for a claim. -/
theorem wit_Management_quote :
    let f : Fuses := { lc := 2, secret := some 0, rootHash := 0, claims := 8191 }
    let s := sU fun s => { s with sec := { idok := true, left := 1 }, fuses := f }
    s.hif.dev ≠ 0 ∧ 1 ≤ s.fuses.lc ∧ s.fuses.lc ≤ 3 ∧ s.sec.idok = true ∧ s.fuses.topKeys.isSome = true ∧ s.sec.left ≠ 0 ∧ s.fuses.claims < 8192 ∧ 8192 ≤ ({ f with claims := 8192 } : Fuses).claims := by decide
/-- A topology in pieces of an old snapshot, a debug packet of a FIELD part, a RETURNED part, and an SVN with nothing to burn. -/
theorem wit_Management_others :
    ({ staleT := true } : Mbx).staleT = true ∧ ({ staleF := true } : Mbx).staleF = true ∧ (1 : Nat) < 2 ^ 31 ∧ (sU).fuses.lc = 2 ∧ (sU).sec.debug = false ∧ ({ lc := 3 } : Fuses).lc = 3 ∧
      (sU).sec.image ≤ (sU).fuses.svn ∧ (sU).hif.cmds = [] ∧ (sU).mbx.busy = false ∧ ({ job := 0 } : Hif).job = 0 := by decide
/-- The event ring full, and a frame that finds Bus Master Enable off or the telemetry ring full. -/
theorem wit_LogAndTelemetry_full :
    let s := sU fun s => { s with hif := { s.hif with evq := { en := true, log2n := 4, head := 0, tail := 15 } }, mc := { log := [{ tb := 1, r := { cls := 1, sev := 0 } }], total := 1 } }
    let t := sU fun s => { s with tb := 3000000, hif := { s.hif with bme := false }, tel := { en := true, interval := 1, log2n := 2, tail := 3 } }
    2 ^ s.hif.evq.log2n ≤ (s.hif.evq.tail + 2 ^ s.hif.evq.log2n - s.hif.evq.head) % 2 ^ s.hif.evq.log2n + 1 ∧ s.mc.total = s.mc.mirrored + 1 ∧ t.hif.bme = false ∧ (t.tel.window + 1) * (t.tel.interval * 1000000) ≤ t.tb ∧
      2 ^ t.tel.log2n ≤ (t.tel.tail + 2 ^ t.tel.log2n - t.tel.head) % 2 ^ t.tel.log2n + 1 ∧ (sU).tel.en = false := by decide
/-- A stream that fails at the memory port where it leaves the mesh, a core whose word another scrub passes, and a self-test that missed before. -/
theorem wit_ServiceErrors_others :
    let s := sDrip fun s => { s with mc := { s.mc with fails := [{ node := 3456, stream := 40, here := true }], missed := [1], sensorsOut := [3] } }
    s.mc.fails.map FailPt.here = [true] ∧ s.dead = false ∧ 1 ∈ s.mc.missed ∧ 3 ∈ s.mc.sensorsOut ∧ (17 : Nat) / 16 ≠ 0 ∧ 8 * 17 + 8 ≤ (s.env 0).spadBytes ∧ (sU).mc.drip.st ≠ .on ∧ (sU).mc.drip.st ≠ .starting ∧
      ({ en := true, st := .starting } : EnFsm).en = true ∧ s.hif.dev ≠ 3 ∧ ({ sU with hif := { sU.hif with dev := 3 } } : State).hif.dev = 3 := by decide
theorem wit_RegisterWrites_others :
    ({ sU with chipLock := true } : State).chipLock = true ∧ ({ busy := true } : Mbx).busy = true ∧ (601 : Word).toNat > 600 ∧ ((601 : Word).extractLsb' 0 10).toNat = 601 ∧ (1 : Word).getLsbD 0 = true ∧
      (0x8000000000000000 : Word).getLsbD 63 = true := by decide

/-! ## Single steps, with expected values worked out from the tables of the spec -/

def s2 (a b : TWord) : State := st [(1, a), (2, b)]
/-- FSR after a command. -/
def fsr0 (o : Out) : BitVec 13 := (((nxt o).coreAt 0).thread 0).fsr
def pc0 (o : Out) : BitVec 16 := (((nxt o).coreAt 0).thread 0).pc
def cause0 (o : Out) : Word := (((nxt o).coreAt 0).thread 0).xcause

-- Table 3-7
theorem test_add_wraps : r0 (exec (.add 0 0 3 1 2) (s2 (tint 0x7FFFFFFFFFFFFFFF) (tint 1))) 3 = tint 0x8000000000000000 := by decide
theorem test_sub_own_source : r0 (exec (.sub 0 0 1 1 2) (s2 (tint 5) (tint 7))) 1 = tint (-2) := by decide
theorem test_shl_low_six_bits : r0 (exec (.shl 0 0 3 1 2) (s2 (tint 3) (tint 65))) 3 = tint 6 := by decide
theorem test_sra_sign : r0 (exec (.sra 0 0 3 1 2) (s2 (tint (-8)) (tint 1))) 3 = tint (-4) := by decide
theorem test_mulh : r0 (exec (.mulh 0 0 3 1 2) (s2 (tint (-1)) (tint (-1)))) 3 = tint 0 := by decide
theorem test_mulhu : r0 (exec (.mulhu 0 0 3 1 2) (s2 (tint (-1)) (tint (-1)))) 3 = tint 0xFFFFFFFFFFFFFFFE := by decide
theorem test_div_by_zero : r0 (exec (.div 0 0 3 1 2) (s2 (tint 7) (tint 0))) 3 = tint (-1) := by decide
theorem test_div_overflow : r0 (exec (.div 0 0 3 1 2) (s2 (tint 0x8000000000000000) (tint (-1)))) 3 = tint 0x8000000000000000 := by decide
theorem test_div_truncates : r0 (exec (.div 0 0 3 1 2) (s2 (tint (-7)) (tint 2))) 3 = tint (-3) := by decide
theorem test_rem_sign : r0 (exec (.rem 0 0 3 1 2) (s2 (tint (-7)) (tint 2))) 3 = tint (-1) := by decide
theorem test_rem_by_zero : r0 (exec (.rem 0 0 3 1 2) (s2 (tint 7) (tint 0))) 3 = tint 7 := by decide
theorem test_clz_zero : r0 (exec (.clz 0 0 3 1) (s2 (tint 0) (tint 0))) 3 = tint 64 := by decide
theorem test_ctz : r0 (exec (.ctz 0 0 3 1) (s2 (tint 0x50) (tint 0))) 3 = tint 4 := by decide
theorem test_andi_zero_extends : r0 (exec (.andi 0 0 3 1 0xFFFF) (s2 (tint (-1)) (tint 0))) 3 = tint 0xFFFF := by decide
theorem test_addi_sign_extends : r0 (exec (.addi 0 0 3 1 0xFFFF) (s2 (tint 5) (tint 0))) 3 = tint 4 := by decide
theorem test_movi_negative : r0 (exec (.movi 0 0 3 0x1FFFFF) (st [])) 3 = tint (-1) := by decide
theorem test_movk : r0 (exec (.movk 0 0 1 3 0x8001) (s2 (tint 5) (tint 0))) 1 = tint 0x8001000000000005 := by decide
theorem test_write_to_g0 : r0 (exec (.add 0 0 0 1 2) (s2 (tint 5) (tint 7))) 0 = tint 0 := by decide
theorem test_tag_fault_code : (cause0 (exec (.add 0 0 3 1 2) (s2 (tflt 5) (tint 7)))).extractLsb' 0 8 = 0x15 := by decide
-- Tables 3-8 to 3-10
theorem test_fadd : r0 (exec (.fadd 0 0 3 1 2 0) (s2 (tflt 0x3FF0000000000000) (tflt 0x4000000000000000))) 3 = tflt 0x4008000000000000 := by decide
theorem test_fadd_ties_to_even : r0 (exec (.fadd 0 0 3 1 2 0) (s2 (tflt 0x3FF0000000000000) (tflt 0x3CA0000000000000))) 3 = tflt 0x3FF0000000000000 := by decide
theorem test_fadd_upward : r0 (exec (.fadd 0 0 3 1 2 2) (s2 (tflt 0x3FF0000000000000) (tflt 0x3CA0000000000000))) 3 = tflt 0x3FF0000000000001 := by decide
theorem test_fadd_inexact : (fsr0 (exec (.fadd 0 0 3 1 2 0) (s2 (tflt 0x3FF0000000000000) (tflt 0x3CA0000000000000)))).getLsbD 0 = true := by decide
theorem test_fsub_zero : r0 (exec (.fsub 0 0 3 1 2 3) (s2 (tflt 0x3FF0000000000000) (tflt 0x3FF0000000000000))) 3 = tflt 0x8000000000000000 := by decide
theorem test_fdiv_by_zero : r0 (exec (.fdiv 0 0 3 1 2 0) (s2 (tflt 0xBFF0000000000000) (tflt 0))) 3 = tflt 0xFFF0000000000000 := by decide
theorem test_fmul_overflow : r0 (exec (.fmul 0 0 3 1 2 1) (s2 (tflt 0x7FE0000000000000) (tflt 0x7FE0000000000000))) 3 = tflt 0x7FEFFFFFFFFFFFFF := by decide
theorem test_fsqrt : r0 (exec (.fsqrt 0 0 3 1 0) (s2 (tflt 0x4022000000000000) (tflt 0))) 3 = tflt 0x4008000000000000 := by decide +kernel
/-- (1 + 2^-30)^2 - (1 + 2^-29) is 2^-60 exactly. -/
theorem test_fma_one_rounding :
    r0 (exec (.fma 0 0 4 1 1 2 0) (s2 (tflt 0x3FF0000000400000) (tflt 0xBFF0000000800000))) 4 = tflt 0x3C30000000000000 := by decide
theorem test_fmin_negative_zero : r0 (exec (.fmin 0 0 3 1 2) (s2 (tflt 0) (tflt 0x8000000000000000))) 3 = tflt 0x8000000000000000 := by decide
theorem test_flt_nan : r0 (exec (.flt 0 0 3 1 2) (s2 (tflt 0x7FF8000000000000) (tflt 0))) 3 = tint 0 := by decide
theorem test_fcvt_i_ties_to_even : r0 (exec (.fcvtI 0 0 3 1 0) (s2 (tflt 0x4004000000000000) (tflt 0))) 3 = tint 2 := by decide
theorem test_ucvt_f : r0 (exec (.ucvtF 0 0 3 1 0) (s2 (tint (-1)) (tflt 0))) 3 = tflt 0x43F0000000000000 := by decide
theorem test_fcvt_s : r0 (exec (.fcvtS 0 0 3 1 0) (s2 (tflt 0x3FF0000000000000) (tflt 0))) 3 = traw 0x3F800000 := by decide
theorem test_scvt_f : r0 (exec (.scvtF 0 0 3 1) (s2 (traw 0x3F800000) (tflt 0))) 3 = tflt 0x3FF0000000000000 := by decide
theorem test_frintx : r0 (exec (.frint 0 0 3 1 1) (s2 (tflt 0xC004000000000000) (tflt 0))) 3 = tflt 0xC000000000000000 := by decide
-- R106 to R110, Table 3-12
theorem test_lds_sign : r0 (exec (.lds 0 0 3 1 0 true 1) (sL (traw 0x8000))) 3 = tint (-128) := by decide
theorem test_lds_zero : r0 (exec (.lds 0 0 3 1 1 false 2) (sL (traw 0xABCD0000))) 3 = tint 0xABCD := by decide
theorem test_ld_keeps_tag : r0 (exec (.ld 0 0 3 1 0) (sL (tflt 5))) 3 = tflt 5 := by decide
theorem test_ld_wrong_tag : (cause0 (exec (.ldP 0 0 3 1 0) (sL (tint 5)))).extractLsb' 0 8 = 0x15 := by decide
theorem test_st : ((nxt (exec (.st 0 0 2 1 8) sP)).coreAt 0).spad.word 0x1010 = tint 7 := by decide
theorem test_sts_makes_raw : ((nxt (exec (.sts 0 0 2 1 0 1) (sL (tint 0x1111)))).coreAt 0).spad.word 0x1008 = traw 0x0711 := by decide
theorem test_imst : mget 0 ((nxt (exec (.imst 0 0 1 2) (s2 (tint 8) (tint 0x112345678)))).coreAt 0).imem 2 = 0x12345678 := by decide
-- R118 to R122
theorem test_jal_link : r0 (exec (.jal 0 0 3 4) (stT [] fun th => { th with pc := 0x100 })) 3 = ⟨0x108, .code⟩ := by decide
theorem test_jal_slot_first : pc0 (exec (.jal 0 0 3 4) (stT [] fun th => { th with pc := 0x100 })) = 0x104 := by decide
theorem test_slot_then_target : pc0 (exec (.movi 0 0 3 1) (nxt (exec (.jal 0 0 3 4) (stT [] fun th => { th with pc := 0x100 })))) = 0x110 := by decide
theorem test_bcc_not_taken : pc0 (exec (.movi 0 0 3 1) (nxt (exec (.bcc 0 0 1 0 4) (stT [(1, tint 1)] fun th => { th with pc := 0x100 })))) = 0x108 := by decide
theorem test_loop_skips : pc0 (exec (.loop 0 0 true 1 2) (stT [(1, tint 0)] fun th => { th with pc := 0x100 })) = 0x10C := by decide
-- chapter 4
theorem test_sysc_enters : pc0 (exec (.sysc 0 0 3) (stT [] fun th => { th with pc := 0x100 })) = 0x18 := by decide
theorem test_sysc_returns_after : (((nxt (exec (.sysc 0 0 3) (stT [] fun th => { th with pc := 0x100 }))).coreAt 0).thread 0).xra = 0x104 := by decide
theorem test_fault_vector : pc0 (exec (.add 0 0 3 1 2) (s2 (tflt 5) (tint 7))) = 0xA8 := by decide
-- Table 3-15
theorem test_tagof_hnd : r0 (exec (.tagof 0 0 3 1) (s2 ⟨0, .hnd⟩ (tint 0))) 3 = tint 5 := by decide
theorem test_plen : r0 (exec (.plen 0 0 3 1) (s2 ⟨(64 : Word) <<< 42, .ptr⟩ (tint 0))) 3 = tint 64 := by decide
theorem test_schip : r0 (exec (.schip 0 0 3 1) (s2 ⟨0xABC5000000000008, .sptr⟩ (tint 0))) 3 = tint 0xABC := by decide
theorem test_skind : r0 (exec (.skind 0 0 3 1) (s2 ⟨0xABC5000000000008, .sptr⟩ (tint 0))) 3 = tint 5 := by decide
-- chapter 10
theorem test_scinc : ((nxt (exec (.scinc 0 0 0 2 47) (s2 (tint 0) (tint 9)))).coreAt 0).scAt 47 = 9 := by decide
theorem test_scinc_zero : (cause0 (exec (.scinc 0 0 0 2 47) (s2 (tint 0) (tint 0)))).extractLsb' 0 8 = 0x16 := by decide
-- Tables 7-3 and 8-2: words written out from their fields
theorem test_word_tmma : encTmma 2 5 6 17 9 30 true false true = 0b110000_10_101_110_10001_01001_11110_1_0_1 := by decide
theorem test_word_tinit : encTinit 7 31 63 1 = 0b110101_0111_11111_111111_001_00000000 := by decide
theorem test_word_vadd : encV38 31 1 2 4 0 = 0b111000_11111_00001_00010_100_00000000 := by decide
theorem test_word_vfnma : encV39 3 4 5 6 1 2 = 0b111001_00011_00100_00101_00110_001_010 := by decide
theorem test_word_vimul : encV3A 1 2 3 2 4 = 0b111010_00001_00010_00011_10_000000100 := by decide

/-- Core 0 with a command of its VXE started and lanes of registers 1 and 2. -/
def sVx (iw : Nat) (m : Mem) : State := st [] fun k => { k with vxe := { eng := { q := [{ qw := vxeRecord k.vxe iw 0 0 0, started := true }] }, v := m } }
def lane0 (o : Out) (r i : Nat) : Nat := ((nxt o).coreAt 0).vxe.lane r 0 4 i
-- chapter 8: 1.0 + 2.0 in lane 0, and a saturating 32-bit sum in lane 31
theorem test_vadd : lane0 (exec (.engineCommandComplete 0 1) (sVx (encV38 3 1 2 0 0) [(130, 0x80), (131, 0x3F), (259, 0x40)])) 3 0 = 0x40400000 := by decide +kernel
theorem test_viadds : lane0 (exec (.engineCommandComplete 0 1) (sVx (encV3A 3 1 2 2 2) [(255, 0x7F), (383, 0x7F)])) 3 31 = 0x7FFFFFFF := by decide +kernel
-- chapters 15, 18, 19 and 22
theorem test_idle_before_bringup : nxt (step { chipId := 7 }) = { chipId := 7 } := by decide
theorem test_idle_tick : (nxt (step { brg := { phase := 9 } })).tb = 1 := by decide
theorem test_step_front : (nxt (step { pending := [.throttleAssert, .throttleRelease] })).pending.length = 1 := by decide
theorem test_release_begins : (nxt (exec .coldResetRelease State.reset)).brg.phase = 1 := by decide
theorem test_saturated_flits : (reduceFlit 1 7 false { fl 40 with data := List.replicate 64 0x7F } { fl 44 with data := List.replicate 64 0x7F }).1.data.take 4 = [0xFF, 0xFF, 0xFF, 0x7F] := by decide
theorem test_seq_of_record : ((mget {} (({} : State).record { cls := 1, sev := 0, ukind := 7 }).errs 48).recs.map fun r => r.r.cls) = [1] := by decide

end Sys2Proof.Tests
end

section
/-! PROOFS. How a word whose own part branches goes on, and a word whose fields make it illegal. -/

namespace Sys2Proof.Machine

@[simp] theorem needInt_tint (a : Word) : needInt (tint a) = .ok a := rfl

/-- A branch goes on at its delay slot, which owes the target. -/
theorem finish_branch (e : Env) (k : Core) (t : Nat) (target : Option (BitVec 16)) (reads : Option Nat) :
    finish e k t (.branch target reads) =
      (k.updThread t fun th => { th.ran with pc := pcNext th.pc, slot := some ⟨th.pc, target, reads⟩, shadow := false }, []) := rfl

/-- Its own part leaves the core as it is and branches: the delay slot is next (R118). -/
theorem State.word_branches {s : State} {c : CoreId} {t : Thr} {i : Env → Thread → IssueInfo} {b : Body}
    {target : Option (BitVec 16)} {reads : Option Nat}
    (h : MayIssue s c t (i (s.env c.val) ((s.coreAt c.val).thread t.val)))
    (hb : b (s.env c.val) (s.coreAt c.val) t.val = .ok (s.coreAt c.val, .branch target reads, [])) :
    s.word c t i b = .next (s.branched c t none target reads) := by
  rw [State.word_runs h]
  simp only [State.onCore, runBody, hb, ctlIssued, finish_branch, Core.updThread_updThread, Bool.not_true, Bool.or_self,
    Bool.false_eq_true, if_false, List.append_nil]
  rfl

/-- A word whose own fields are illegal, fetched clean, is the illegal instruction fault whatever the other checks would find (R97, R98). -/
theorem precheck_illegal {s : State} {c : CoreId} {t : Thr} {i : IssueInfo} (h : MayIssue s c t {}) (hi : i.illegal = true) :
    precheck (s.coreAt c.val) ((s.coreAt c.val).thread t.val) i =
      some { code := 0x10, addr := pcWord ((s.coreAt c.val).thread t.val).pc } := by
  simp [precheck, h.fetch, h.clean, hi]

/-- Such a word faults before its own part runs. -/
theorem State.word_illegal {s : State} {c : CoreId} {t : Thr} {i : Env → Thread → IssueInfo} {b : Body}
    (h : MayIssue s c t {}) (hi : (i (s.env c.val) ((s.coreAt c.val).thread t.val)).illegal = true) :
    s.word c t i b = .next (s.faulted c t { code := 0x10, addr := pcWord (s.thrOf c t).pc }) := by
  simp [State.word, State.onCore, issue, issueDue, h.canIssue, precheck_illegal h hi, State.faulted, State.thrOf]

end Sys2Proof.Machine
end

section
/-! PROOFS. MOVI and MOVK: what they write, and the constants that they make (R100). -/

namespace Sys2Proof.Machine

/-- w with its 16-bit field number hw replaced by m. -/
def putHalf (w : Word) (hw : Fin 4) (m : BitVec 16) : Word :=
  (w &&& ~~~((0xFFFF : Word) <<< (16 * hw.val))) ||| (m.setWidth 64 <<< (16 * hw.val))

/-- The mask of the model's MOVK is the field of ones. -/
theorem movkMask_eq (hw : Fin 4) : BitVec.ofNat 64 (65535 * 2 ^ (16 * hw.val)) = (0xFFFF : Word) <<< (16 * hw.val) := by
  decide +revert

/-- The bits of the field are those of m, the others those of w. -/
theorem getLsbD_putHalf (w : Word) (hw : Fin 4) (m : BitVec 16) {i : Nat} (hi : i < 64) :
    (putHalf w hw m).getLsbD i = if 16 * hw.val ≤ i ∧ i < 16 * hw.val + 16 then m.getLsbD (i - 16 * hw.val) else w.getLsbD i := by
  have inWord : i - 16 * hw.val < 64 := Nat.lt_of_le_of_lt (Nat.sub_le ..) hi
  have ones : (0xFFFF : Word).getLsbD (i - 16 * hw.val) = decide (i - 16 * hw.val < 16) := by
    rw [show (0xFFFF : Word) = (BitVec.allOnes 16).setWidth 64 from rfl, BitVec.getLsbD_setWidth, BitVec.getLsbD_allOnes]
    simp [inWord]
  simp only [putHalf, BitVec.getLsbD_or, BitVec.getLsbD_and, BitVec.getLsbD_not, BitVec.getLsbD_shiftLeft, BitVec.getLsbD_setWidth, ones, hi, inWord]
  by_cases below : i < 16 * hw.val
  · simp [below]
  by_cases inside : i - 16 * hw.val < 16
  · simp [below, inside, Nat.le_of_not_lt below, show i < 16 * hw.val + 16 by omega]
  · simp [below, inside, show ¬ i < 16 * hw.val + 16 by omega, BitVec.getLsbD_of_ge m _ (Nat.le_of_not_lt inside)]

/-- Any word is its low 21 bits, extended by their sign, with its three upper fields put in. -/
theorem eq_putHalf_signExtend (v : Word) :
    v = putHalf (putHalf (putHalf ((v.setWidth 21).signExtend 64) 1 (v.extractLsb' 16 16)) 2 (v.extractLsb' 32 16)) 3 (v.extractLsb' 48 16) := by
  apply BitVec.eq_of_getLsbD_eq
  intro i hi
  have field (m : Nat) (h : m ≤ i ∧ i < m + 16) : v.getLsbD i = (v.extractLsb' m 16).getLsbD (i - m) := by
    simp [show i - m < 16 by omega, Nat.add_sub_cancel' h.1]
  simp only [getLsbD_putHalf _ _ _ hi]
  split_ifs with third second first
  · exact field _ third
  · exact field _ second
  · exact field _ first
  · have low : i < 21 := by simp at first second third; omega
    rw [BitVec.getLsbD_signExtend, BitVec.getLsbD_setWidth]
    simp [low, hi]

/-- MOVI writes the sign-extended immediate. -/
theorem exec_movi {s : State} {c : CoreId} {t : Thr} {rd : Reg} (imm : BitVec 21) (h : MayIssue s c t { writes := [rd.val] }) :
    exec (.movi c t rd imm) s = .next (s.wrote c t rd (tint (imm.signExtend 64))) :=
  State.word_writes h rfl

/-- MOVK replaces one field of an INT. -/
theorem exec_movk {s : State} {c : CoreId} {t : Thr} {rd : Reg} {a : Word} (hw : Fin 4) (imm : BitVec 16)
    (h : MayIssue s c t { writes := [rd.val] }) (ha : s.greg c t rd = tint a) :
    exec (.movk c t rd hw imm) s = .next (s.wrote c t rd (tint (putHalf a hw imm))) := by
  refine State.word_writes h ?_
  have ha : (s.thrOf c t).reg rd.val = tint a := ha
  rw [ha, needInt_tint, movkMask_eq]
  rfl

/-- Settles O6: each word by its rule, the constant by its own bits as the four immediates. -/
theorem intConstants : Obligations.IntConstants := by
  unfold Obligations.IntConstants
  refine ⟨fun s c t rd a hw imm imm21 h => ⟨exec_movi imm21 h, fun ha => ⟨exec_movk hw imm h ha, fun i hi => ?_⟩⟩, fun v => ?_⟩
  · exact getLsbD_putHalf a hw imm hi
  · exact ⟨_, _, _, _, eq_putHalf_signExtend v⟩

end Sys2Proof.Machine
end

section
/-! PROOFS. Bcc: the seven conditions and the illegal eighth (R119). -/

namespace Sys2Proof.Machine

/-- The target in the 16-bit program counter: the sum past either end of instruction memory wraps (log entry 34). -/
theorem branchTarget_eq (pc : BitVec 16) (off : Int) : branchTarget pc off = pc + BitVec.ofInt 16 (4 * off) := by
  rw [branchTarget, BitVec.ofInt_add, BitVec.ofInt_natCast, BitVec.ofNat_toNat, BitVec.setWidth_eq]

/-- Bcc with a condition of R119 branches, to its target when the condition holds of ra. -/
theorem exec_bcc {s : State} {c : CoreId} {t : Thr} {ra : Reg} {a : Word} (cond : BitVec 3) (off : BitVec 18) (hc : cond ≠ 7)
    (h : MayIssue s c t { noSlot := true, loopEnd := true, branch := true }) (ha : s.greg c t ra = tint a) :
    exec (.bcc c t ra cond off) s = .next (s.branched c t none
      (if condHolds cond.toNat a.toInt then some ((s.thrOf c t).pc + BitVec.ofInt 16 (4 * off.toInt)) else none) (some ra.val)) := by
  refine State.word_branches (by rwa [beq_false_of_ne hc]) ?_
  have ha : ((s.coreAt c.val).thread t.val).reg ra.val = tint a := ha
  simp only [opBcc, ha, needInt_tint, ← branchTarget_eq, State.thrOf]
  rfl

/-- Bcc with condition 7 is the illegal instruction fault, whatever ra holds. -/
theorem exec_bcc_illegal {s : State} {c : CoreId} {t : Thr} (ra : Reg) (off : BitVec 18) (h : MayIssue s c t {}) :
    exec (.bcc c t ra 7 off) s = .next (s.faulted c t { code := 0x10, addr := pcWord (s.thrOf c t).pc }) :=
  State.word_illegal h rfl

/-- Settles O13: each condition is `condHolds` of its code. -/
theorem conditionalBranch : Obligations.ConditionalBranch := by
  unfold Obligations.ConditionalBranch
  intro s c t ra off a ha
  refine ⟨fun h => ?_, exec_bcc_illegal ra off⟩
  have branches (cond : BitVec 3) (hc : cond ≠ 7) := exec_bcc cond off hc h ha
  exact ⟨branches 0 (by decide), branches 1 (by decide), branches 2 (by decide), branches 3 (by decide), branches 4 (by decide),
    branches 5 (by decide), branches 6 (by decide)⟩

end Sys2Proof.Machine
end

section
/-! PROOFS. ARM: the privileged fault in U mode, and an own part that leaves its thread as it is (R128, R138). -/

namespace Sys2Proof.Machine

/-- The privilege check is the last of the checks of R98: it counts where the others find nothing. -/
theorem precheck_eq_or (k : Core) (th : Thread) (i : IssueInfo) :
    precheck k th i = (precheck k th { i with priv := false }).or (if i.priv && !th.smode then some (evPriv (pcWord th.pc)) else none) := by
  simp only [precheck, Bool.false_and, Bool.false_eq_true, if_false, evPriv]
  -- the first check that finds something decides both sides
  split
  · rfl
  split
  · rfl
  split
  · rfl
  split <;> rename_i loopHere <;> simp only [loopHere, Option.some_or]
  split <;> rename_i loopAtSlot <;> simp only [loopAtSlot, Option.some_or]
  split <;> rename_i overwritten <;> simp only [overwritten, Option.some_or, Option.none_or]

/-- A privileged word in U mode that passes every other check is the privileged instruction fault at its address (R128). -/
theorem precheck_privileged {s : State} {c : CoreId} {t : Thr} {i : IssueInfo} (h : MayIssue s c t { i with priv := false })
    (hp : i.priv = true) (hu : (s.thrOf c t).smode = false) :
    precheck (s.coreAt c.val) ((s.coreAt c.val).thread t.val) i = some (evPriv (pcWord (s.thrOf c t).pc)) := by
  have hu' : ((s.coreAt c.val).thread t.val).smode = false := hu
  rw [precheck_eq_or, h.precheck, hp, hu']
  rfl

/-- Such a word faults before its own part runs. -/
theorem State.word_privileged {s : State} {c : CoreId} {t : Thr} {i : Env → Thread → IssueInfo} {b : Body}
    (h : MayIssue s c t { i (s.env c.val) (s.thrOf c t) with priv := false })
    (hp : (i (s.env c.val) (s.thrOf c t)).priv = true) (hu : (s.thrOf c t).smode = false) :
    s.word c t i b = .next (s.faulted c t (evPriv (pcWord (s.thrOf c t).pc))) := by
  have denied := precheck_privileged h hp hu
  simp only [State.thrOf] at denied
  simp [State.word, State.onCore, issue, issueDue, h.canIssue, denied, State.faulted, State.thrOf, evPriv]

/-- A change that leaves the thread as it is does not show once the thread has completed. -/
theorem Core.retire_updThread_of_fixed {k : Core} {t : Nat} {f : Thread → Thread} (hf : f (k.thread t) = k.thread t) :
    (k.updThread t f).retire t = k.retire t := by
  simp only [Core.retire, Core.updThread_updThread]
  simp only [Core.updThread, hf]

/-- The thread after ARM. -/
def Thread.armed (th : Thread) : Thread := { th with arm := true, dfh := false }

/-- A thread that is armed and in no double fault stays as it is. -/
theorem Thread.armed_of_armed {th : Thread} (ha : th.arm = true) (hd : th.dfh = false) : th.armed = th := by
  rw [Thread.armed, ← ha, ← hd]

/-- ARM in S mode arms its thread and completes. -/
theorem exec_arm {s : State} {c : CoreId} {t : Thr} (h : MayIssue s c t { priv := true }) :
    exec (.arm c t) s = .next (s.retired c t fun k => k.updThread t.val Thread.armed) :=
  State.word_retires h rfl

/-- ARM in U mode is the privileged instruction fault. -/
theorem exec_arm_privileged {s : State} {c : CoreId} {t : Thr} (h : MayIssue s c t {}) (hu : (s.thrOf c t).smode = false) :
    exec (.arm c t) s = .next (s.faulted c t (evPriv (pcWord (s.thrOf c t).pc))) :=
  State.word_privileged h rfl hu

/-- ARM of an armed thread only completes. -/
theorem exec_arm_of_armed {s : State} {c : CoreId} {t : Thr} (h : MayIssue s c t { priv := true })
    (ha : (s.thrOf c t).arm = true) (hd : (s.thrOf c t).dfh = false) :
    exec (.arm c t) s = .next (s.retired c t id) := by
  rw [exec_arm h]
  simp only [State.retired, State.after, id, Core.retire_updThread_of_fixed (Thread.armed_of_armed ha hd)]

/-- Settles O18: ARM arms, faults in U mode, and changes nothing of an armed thread but its completion. -/
theorem armInstruction : Obligations.ArmInstruction := by
  unfold Obligations.ArmInstruction
  exact fun s c t => ⟨exec_arm, exec_arm_privileged, exec_arm_of_armed⟩

end Sys2Proof.Machine
end

section
/-! PROOFS. Records at a queue: which record an arriving one adds to, and when it takes an entry or is dropped (R636 to R638). -/

namespace Sys2Proof.Machine

theorem ErrRec.same_iff {x r : ErrRec} :
    x.same r = true ↔ x.cls = r.cls ∧ x.sev = r.sev ∧ x.ukind = r.ukind ∧ x.lunit = r.lunit ∧ x.punit = r.punit ∧ x.key = r.key := by
  simp only [ErrRec.same, Bool.and_eq_true, beq_iff_eq, and_assoc]

/-- The record with one occurrence more, at most the greatest REPEAT. -/
def Rec.repeated (y : Rec) : Rec := { y with rep := min (2 ^ 32 - 1) (y.rep + 1) }

/-! ### The search for the newest record of a source -/

/-- When no later record takes the occurrence, an identical one does, unless a later one of the source bars it. -/
theorem coalesce_cons_of_none {r : ErrRec} {x : Rec} {rest : List Rec} (h : coalesce r rest = none) :
    coalesce r (x :: rest) =
      if ∃ w ∈ rest, w.r.source = r.source then none
      else if x.r.source = r.source ∧ x.r.same r then some (x.repeated :: rest) else none := by
  simp only [coalesce, h, List.any_eq_true, beq_iff_eq]
  rfl

/-- Records before one that takes the occurrence stay as they are. -/
theorem coalesce_append_of_some {r : ErrRec} {l l' : List Rec} (h : coalesce r l = some l') (a : List Rec) :
    coalesce r (a ++ l) = some (a ++ l') := by
  induction a with
  | nil => exact h
  | cons x a ih => simp only [List.cons_append, coalesce, ih]

/-- A record before another of its source never takes the occurrence. -/
theorem coalesce_append_of_none {r : ErrRec} {l : List Rec} (h : coalesce r l = none) (present : ∃ w ∈ l, w.r.source = r.source)
    (a : List Rec) : coalesce r (a ++ l) = none := by
  obtain ⟨w, hw, hs⟩ := present
  induction a with
  | nil => exact h
  | cons x a ih =>
    rw [List.cons_append, coalesce_cons_of_none ih, if_pos ⟨w, List.mem_append_right a hw, hs⟩]

/-- A queue without a record of the source has none to add to. -/
theorem coalesce_of_absent {r : ErrRec} {l : List Rec} (absent : ∀ w ∈ l, w.r.source ≠ r.source) : coalesce r l = none := by
  induction l with
  | nil => rfl
  | cons x l ih =>
    obtain ⟨other, absent⟩ := List.forall_mem_cons.mp absent
    rw [coalesce_cons_of_none (ih absent), if_neg (by simpa using absent), if_neg fun h => other h.1]

/-- The newest record of the source alone can take the occurrence, and does when it is identical (R636). -/
theorem coalesce_newest {r : ErrRec} {y : Rec} {b : List Rec} (a : List Rec) (hy : y.r.source = r.source)
    (newest : ∀ w ∈ b, w.r.source ≠ r.source) :
    coalesce r (a ++ y :: b) = if y.r.same r then some (a ++ y.repeated :: b) else none := by
  have decides : coalesce r (y :: b) = if y.r.same r then some (y.repeated :: b) else none := by
    rw [coalesce_cons_of_none (coalesce_of_absent newest), if_neg (by simpa using newest)]
    simp only [hy, true_and]
  split_ifs at decides ⊢
  · exact coalesce_append_of_some decides a
  · exact coalesce_append_of_none decides ⟨y, List.mem_cons_self, hy⟩ a

/-! ### A record arrives at a queue -/

section
variable {q : ErrQ} {r : ErrRec} (tb chip : Nat)

/-- An occurrence added takes no entry, whatever the queue's length. -/
theorem ErrQ.add_of_some {rs : List Rec} (h : coalesce r q.recs = some rs) :
    (q.add tb chip r).recs = rs ∧ (q.add tb chip r).unrep = q.unrep := by
  simp [ErrQ.add, h]

/-- Any other record takes the next entry of a queue that has one. -/
theorem ErrQ.add_of_none_of_room (h : coalesce r q.recs = none) (room : q.recs.length < 64) :
    (q.add tb chip r).recs = q.recs ++ [{ tb := tb, r := r, chip := chip }] ∧ (q.add tb chip r).unrep = q.unrep := by
  simp [ErrQ.add, h, room]

/-- A full queue drops it and counts the drop (R638). -/
theorem ErrQ.add_of_none_of_full (h : coalesce r q.recs = none) (full : 64 ≤ q.recs.length) :
    (q.add tb chip r).recs = q.recs ∧ (q.add tb chip r).unrep = q.unrep + 1 := by
  simp [ErrQ.add, h, Nat.not_lt.mpr full]

end

/-- The record arrives at the queue of its source. -/
theorem State.record_queue (s : State) (r : ErrRec) :
    mget {} (s.record r).errs r.queue = (mget {} s.errs r.queue).add s.tb s.chipId r := by
  simp only [State.record, State.recordAt, mupd, mget_mset_same]

/-- Settles O55: the newest record of the source decides whether the arriving one adds to it; any other takes an entry or is dropped. -/
theorem recordsCoalesce : Obligations.RecordsCoalesce := by
  unfold Obligations.RecordsCoalesce
  intro s r a b y
  simp only [State.record_queue]
  refine ⟨rfl, fun queued hy newest => ⟨?identical, ?differs⟩, fun absent => ?queues, fun absent => ?drops⟩
  case identical =>
    intro cls sev ukind lunit punit key
    have same : y.r.same r = true := ErrRec.same_iff.mpr ⟨cls, sev, ukind, lunit, punit, key⟩
    exact ErrQ.add_of_some _ _ (by rw [queued, coalesce_newest a hy newest, if_pos same]; rfl)
  case differs =>
    intro field
    have differs : ¬ y.r.same r = true := by rw [ErrRec.same_iff]; tauto
    exact ErrQ.add_of_none_of_room _ _ (by rw [queued, coalesce_newest a hy newest, if_neg differs])
  case queues => exact ErrQ.add_of_none_of_room _ _ (coalesce_of_absent absent)
  case drops => exact ErrQ.add_of_none_of_full _ _ (coalesce_of_absent absent)

end Sys2Proof.Machine
end
